-- ==== Sys2Proof/Word.lean ====
section
/-! DEFINITION. The word types of the NS-3128. -/

namespace Sys2Proof

/-- One byte of a port frame or of a phrase cell (R186, R200). -/
abbrev Byte := BitVec 8

/-- A stage time: microseconds counted modulo 2^32 (R1). -/
abbrev StageTime := BitVec 32

/-- A tick position: 1/384 of a beat, modulo 2^32 (R2). -/
abbrev Tick := BitVec 32

/-- A score port, P0 to P2. -/
abbrev Port := Fin 3

/-- A drive chain, D0 to D3. -/
abbrev ChainId := Fin 4

/-- A coil channel, 0 to 127. -/
abbrev ChanId := Fin 128

end Sys2Proof
end

