-- ==== Sys2Proof/Syntax.lean ====
section
/-! DEFINITION. The commands of the NS-3128: one constructor per row of spec/opcode_table.json. -/

namespace Sys2Proof

/-- The payload of CHAN_SETUP after its channel byte (R28, R197). -/
structure SetupFields where
  kind        : Byte
  pulseMin    : BitVec 16
  pulseMax    : BitVec 16
  recovery    : BitVec 16
  heatLimit   : BitVec 16
  coolingRate : Byte
  adaptShift  : Byte
  missLimit   : Byte
  deriving DecidableEq, Repr

/-- One knot of a CHAN_CURVE payload: its pulse and its flight, in pu (R30, R197). -/
structure KnotFields where
  pulse  : BitVec 16
  flight : BitVec 16
  deriving DecidableEq, Repr

/-- The payload of SYS_SETUP (R134, R197). -/
structure SettingsFields where
  horizon       : Byte
  tolerance     : BitVec 16
  mergeWindow   : BitVec 16
  reportWindow  : Byte
  supplyLimit   : Byte
  accentBoost   : Byte
  outlierLimit  : BitVec 16
  highMark      : BitVec 16
  bitRate       : Byte
  gapBits       : Byte
  monitorWindow : Byte
  deriving DecidableEq, Repr

/-- A command: a request taken at a port with the fields of its payload (R197), or an event on a line,
a chain or a timer of the part. -/
inductive Instr where
  | nop (p : Port) (payload : List Byte)
  | portReset (p : Port)
  | clkRun (p : Port) (mode : Byte)
  | clkStop (p : Port) (mode : Byte)
  | clkPlace (p : Port) (mode : Byte) (tick : Tick) (bar : BitVec 16) (beat : Byte)
  | clkRead (p : Port)
  | tempoSet (p : Port) (tempo : BitVec 16)
  | tempoGlide (p : Port) (tempo duration : BitVec 16)
  | tempoCurve (p : Port) (slope curvature count : BitVec 32)
  | meterSet (p : Port) (meter : Byte)
  | cueSet (p : Port) (bar : BitVec 16) (beat flags : Byte)
  | beatMode (p : Port) (mode : Byte)
  | chanSetup (p : Port) (chan : Byte) (fields : SetupFields)
  | chanCurve (p : Port) (chan : Byte) (knots : Vector KnotFields 8)
  | chanRelease (p : Port) (chan : Byte)
  | chanRead (p : Port) (chan : Byte)
  | cellsWrite (p : Port) (start : BitVec 16) (data : List Byte)
  | cellsRead (p : Port) (start : BitVec 16) (count : Byte)
  | phrasePost (p : Port) (start : BitVec 16) (mode : Byte) (value : BitVec 32)
  | portStop (p : Port) (mode : Byte)
  | portFlush (p : Port)
  | portGo (p : Port)
  | strike (p : Port) (chan velocity flags : Byte)
  | holdSet (p : Port) (chan action level : Byte)
  | portRead (p : Port)
  | sysSetup (p : Port) (fields : SettingsFields)
  | sysRead (p : Port)
  | supplyAck (p : Port)
  | chainScan (p : Port) (chain : Byte)
  | chainRead (p : Port) (chain : Byte)
  | timingRead (p : Port)
  | doneRead (p : Port)
  | filterSet (p : Port) (filter mark : Byte)
  | noteMask (p : Port) (selection : BitVec 16)
  | noteEdge (p : Port) (edges : Byte)
  | noteClear (p : Port) (selection : BitVec 16)
  | noteForce (p : Port) (selection : BitVec 16)
  | noteRead (p : Port)
  /-- CS of the port falls (R184). -/
  | transactionOpen (p : Port)
  /-- CS of the port rises: `bytes` are the whole bytes clocked in on SDI since it fell, `extra` is the number
  of bits clocked after the last whole byte (R184, R185). -/
  | transactionClose (p : Port) (bytes : List Byte) (extra : BitVec 3)
  | resetAssert
  | resetRelease
  | safeEntry
  | safeRelease
  | sagBegin
  | sagEnd
  | syncEdge
  | beatStep
  | glideSnap
  | curveEnd
  | beatoutPulseEnd
  | readerPass (p : Port)
  | presentation
  | energisedUntilExpiry (c : ChanId)
  | coolingStep
  | frameEnd (d : ChainId)
  /-- A report frame of 32 bits has arrived on the chain's data-in line (R144, R203). -/
  | reportReceive (d : ChainId) (word : BitVec 32)
  | reportTake (d : ChainId)
  | deadline (c : ChanId)
  | scanEnd (d : ChainId)
  | monitorWindowEnd
  | beatWindowEnd (p : Port)
  deriving DecidableEq, Repr

end Sys2Proof
end

