-- ==== Sys2Proof/Decode.lean ====
section
/-! DEFINITION. Commands spelt by table words. -/

namespace Sys2Proof

/-- No row of spec/opcode_table.json gives bits, so no table word spells a command. The byte layouts of request
frames (R197), cells (R200) and drive and report frames (R203) are read in Machine/Operands.lean. -/
def decodeTableWord (_nbits _w : Nat) : Option Instr := none

end Sys2Proof
end

