-- ==== Sys2Proof/Config.lean ====
section
/-! DEFINITION. The free values of the model: what the manual leaves open. Neither has a body, so nothing can be
proved of a value of theirs; each is applied to the counter `State.freeCount`, which every use advances. -/

namespace Sys2Proof.Config

/-- Free value: the phase of a port's reader passes, which R62 says the manual does not give. Read modulo 500 and
raised by 1, since the first pass comes 1 to 500 µs after the release of RESET (log 3). -/
opaque passPhase : Nat → Nat

/-- Free value: which of several time events due at one moment is taken first; the manual lets either be first,
for example in R115, R155 and R166 (log 2). -/
opaque eventOrder : Nat → Nat

end Sys2Proof.Config
end

