-- ==== Sys2Proof/Machine/State.lean ====
section
/-! DEFINITION. The state of the NS-3128 as plain data, its stops, and the state after reset. -/

namespace Sys2Proof.Machine

/-- Why the part stops. -/
inductive Fault where
  /-- Raised by READER_PASS alone: the pass has read more cells than any pass that ends can read, so its reading
  meets none of the stops of R62 and the pass never ends. The manual gives such a pass no further effect. Safe:
  nothing is claimed of the part after it (log 6). -/
  | endlessPass
  deriving DecidableEq, Repr

/-- Why a command has no meaning. -/
inductive Refusal where
  /-- A command without a meaning in this model. No arm raises it. Safe. -/
  | notModelled (mnemonic : String)
  deriving DecidableEq, Repr

/-! ### The beat clock (R1 to R22) -/

/-- A held ramp (R5). -/
inductive Ramp where
  | none
  | glide (target : BitVec 32) (slope : Int) (left : Nat)
  | curve (slope curvature : Int) (left : Nat)
  deriving DecidableEq, Repr

/-- The action of a pending sync action (R19). -/
inductive SyncAction where
  | run
  | stop
  | place (tick : Tick) (bar : BitVec 16) (beat : Nat)
  deriving DecidableEq, Repr

/-- The pending sync action with the port that requested it (R19). -/
structure PendingSync where
  action : SyncAction
  port   : Port
  deriving DecidableEq, Repr

/-- A phrase of an owner reference: its serial and the address of the cell (R97). -/
structure PhraseRef where
  serial : BitVec 8
  addr   : Nat
  deriving DecidableEq, Repr

/-- An owner reference: who asked. `phrase` is absent for an immediate request (R97). -/
structure OwnerRef where
  port   : Port
  phrase : Option PhraseRef
  pass   : Nat
  mark   : Bool
  deriving DecidableEq, Repr

/-- A tempo cue (R12). `tempo` is in hundredths of a BPM, `duration` in ms. -/
structure TempoCue where
  tick     : Tick
  tempo    : Nat
  duration : Nat
  owner    : OwnerRef
  deriving DecidableEq, Repr

/-- The beat clock (R21). -/
structure Clock where
  tB           : StageTime
  running      : Bool
  pos          : BitVec 64
  rate         : BitVec 32
  ramp         : Ramp
  clamped      : Bool
  placeRefused : Bool
  meter        : Nat
  pendingMeter : Option Nat
  bar          : BitVec 16
  beat         : Nat
  cues         : List TempoCue
  sync         : Option PendingSync
  /-- The end of the BEATOUT pulse in progress; absent while BEATOUT is low (R11). -/
  beatout      : Option StageTime
  /-- The stage time of the next beat step: the step timer of R1. -/
  nextBeat     : StageTime
  deriving DecidableEq, Repr

/-- The beat-notice mode of a port (R10). -/
inductive BeatMode where
  | off
  | beat
  | bar
  deriving DecidableEq, Repr

/-- The cue-match record of a port (R10); an absent bar or beat is ANY. -/
structure CueMatch where
  bar     : Option (BitVec 16)
  beat    : Option Nat
  enabled : Bool
  deriving DecidableEq, Repr

/-! ### The channel table (R23 to R40) -/

/-- Presence (R23). -/
inductive Presence where
  | absent
  | unconfigured
  | ready
  | faulted
  deriving DecidableEq, Repr

/-- Fault causes (R23). -/
inductive FaultCause where
  | coilOpen
  | coilShort
  | jam
  | misses
  deriving DecidableEq, Repr

/-- The kind of a channel (R27). -/
inductive Kind where
  | strike
  | hold
  deriving DecidableEq, Repr

/-- A knot of the velocity curve: pulse and flight in pu (R27). -/
structure Knot where
  pulse  : Nat
  flight : Nat
  deriving DecidableEq, Repr

/-- The seven scalars of a channel (R27). -/
structure Scalars where
  pulseMin    : Nat
  pulseMax    : Nat
  recovery    : Nat
  heatLimit   : Nat
  coolingRate : Nat
  adaptShift  : Nat
  missLimit   : Nat
  deriving DecidableEq, Repr

/-- The figures of a stroke: effective velocity, pulse, predicted flight, curve segment and offset (R80 to R84). -/
structure Figures where
  vEff   : Nat
  pulse  : Nat
  flight : Nat
  seg    : Nat
  off    : Nat
  deriving DecidableEq, Repr

/-- The flight slot of a channel (R34). The pulse of `fig` is the pulse sent. -/
structure FlightSlot where
  tag       : BitVec 2
  owners    : List OwnerRef
  launch    : StageTime
  fig       : Figures
  target    : StageTime
  lateness  : Nat
  merged    : Bool
  retimed   : Bool
  immediate : Bool
  degraded  : Bool
  deadline  : StageTime
  deriving DecidableEq, Repr

/-- A lifted hold (R37): its level and, unless a PORT_RESET has removed it, its lifting port. -/
structure Lift where
  level : Nat
  port  : Option Port
  deriving DecidableEq, Repr

/-- A channel record (section 2.1). An absent `hold` is the hold state DOWN. -/
structure Channel where
  presence   : Presence
  cause      : Option FaultCause
  kind       : Option Kind
  knots      : Vector Knot 8
  scalars    : Scalars
  heat       : Nat
  misses     : Nat
  outliers   : Nat
  readyAfter : Option StageTime
  slot       : Option FlightSlot
  tag        : BitVec 2
  hold       : Option Lift
  lastFlight : Option Nat
  strikes    : BitVec 32
  deriving DecidableEq, Repr

/-! ### The cue reader of a port (R55 to R79) -/

/-- Program errors (R55). -/
inductive ProgramError where
  | linkLoop
  | badKind
  | addressEnd
  deriving DecidableEq, Repr

/-- Hold causes (R55). -/
inductive HoldCause where
  | faultStop
  | safe
  | program (error : ProgramError)
  deriving DecidableEq, Repr

/-- The port state (R55). -/
inductive PortState where
  | idle
  | playing
  | draining
  | held (cause : HoldCause)
  deriving DecidableEq, Repr

/-- The clock of a phrase (R46). -/
inductive PhraseClock where
  | beat
  | free
  deriving DecidableEq, Repr

/-- The fields of a HEAD cell (R46). `repeats` is the repeat field: the phrase plays 1 + repeats passes. -/
structure Head where
  clock       : PhraseClock
  overhang    : Bool
  stopOnFault : Bool
  repeats     : Nat
  length      : Nat
  deriving DecidableEq, Repr

/-- Origin modes with their carried value (R59). -/
inductive Origin where
  | atTick (tick : Tick)
  | nextBar
  | atTime (time : StageTime)
  | nowPlus (delay : Nat)
  | after
  deriving DecidableEq, Repr

/-- A phrase queue slot (R56). -/
structure QueueSlot where
  serial       : BitVec 8
  start        : Nat
  origin       : Origin
  head         : Head
  originPassed : Bool
  deriving DecidableEq, Repr

/-- The reading state of an open record (R57). -/
inductive ReadingState where
  | reading
  | ended
  | cut
  | errored
  deriving DecidableEq, Repr

/-- An open record (R57); `start` is the start address that R65 returns to at each new pass (log 15). -/
structure OpenRec where
  serial      : BitVec 8
  clock       : PhraseClock
  origin      : BitVec 32
  length      : Nat
  overhang    : Bool
  stopOnFault : Bool
  start       : Nat
  passesLeft  : Nat
  pass        : Nat
  addr        : Nat
  links       : Nat
  reading     : ReadingState
  outstanding : Nat
  exceptions  : Nat
  deriving DecidableEq, Repr

/-- The chain end of a port (R65): a tick position or a stage time, by its clock. -/
structure ChainEnd where
  clock : PhraseClock
  pos   : BitVec 32
  deriving DecidableEq, Repr

/-- The reader of a port (R79). -/
structure Reader where
  state      : PortState
  queue      : List QueueSlot
  opened     : List OpenRec
  level      : Nat
  chainEnd   : Option ChainEnd
  nextSerial : BitVec 8
  discards   : Nat
  deriving DecidableEq, Repr

/-! ### The completion and notice unit of a port (R169 to R183) -/

/-- The twenty-one outcomes (R170, R202). -/
inductive OutcomeCode where
  | struck | silent | fault | noReport | late | recovery | thermal
  | supply | safed | withdrawn | absent | wrongKind | muted | clipped
  | absorbed | holdSent | holdDropped | marked | tempoApplied | cueFull | cueDropped
  deriving DecidableEq, Repr

/-- A completion record (R171). `lateness` is −1 where the outcome carries none. -/
structure Completion where
  outcome    : OutcomeCode
  merged     : Bool
  degraded   : Bool
  retimed    : Bool
  immediate  : Bool
  hasPhrase  : Bool
  hasChannel : Bool
  hasFlight  : Bool
  serial     : BitVec 8
  addr       : Nat
  channel    : Nat
  vEff       : Nat
  pulse      : Nat
  lateness   : Int
  landing    : Int
  flight     : Nat
  time       : StageTime
  pass       : Nat
  deriving DecidableEq, Repr

/-- The completion filter (R172). -/
inductive Filter where
  | exceptions
  | all
  deriving DecidableEq, Repr

/-- The completion and notice unit (R183). Bit s of `enables` and `latches` is source s of R175; bit i of
`falling` is set when the i-th level source (9, 10, 12, 13) selects FALLING. -/
structure NoticeUnit where
  records    : List Completion
  lost       : Nat
  filter     : Filter
  mark       : Nat
  enables    : BitVec 14
  latches    : BitVec 14
  falling    : BitVec 4
  beatWindow : Option StageTime
  deriving DecidableEq, Repr

/-! ### The link of a port (R184 to R190) -/

/-- Reply codes (R190, R197). -/
inductive ReplyCode where
  | ok | clamped | badFrame | unknown | range | busy | queueFull
  | full | notReady | clockShared | state | badPhrase | safe
  deriving DecidableEq, Repr

/-- A reply: its code and payload (R189). -/
structure Reply where
  code    : ReplyCode
  payload : List Byte
  deriving DecidableEq, Repr

/-- The link of a port. `stored`, `total` and `partialByte` are the receive buffer's bytes, the count of whole
bytes, and whether an incomplete byte followed (R185); `sdo` and `sdoBits` are what SDO carried in the last
transaction (R189). -/
structure Link where
  isOpen      : Bool
  csLow       : Bool
  stored      : List Byte
  total       : Nat
  partialByte : Bool
  reply       : Option Reply
  sdo         : List Byte
  sdoBits     : List Bool
  deriving DecidableEq, Repr

/-- All that one port holds. `mem` is its phrase memory region: (byte address, byte) pairs in canonical form, an
unlisted byte reading 0 (R41). `nextPass` is the stage time of the next reader pass (R62). -/
structure PortRec where
  reader   : Reader
  unit     : NoticeUnit
  link     : Link
  mem      : List Host.Cell
  cue      : CueMatch
  beatMode : BeatMode
  nextPass : StageTime
  deriving DecidableEq, Repr

/-! ### The strike timeline and the strike engine (R96 to R135) -/

/-- What an entry does (R96). -/
inductive Action where
  | strike (c : ChanId) (fig : Figures)
  | lift (c : ChanId) (level : Nat)
  | drop (c : ChanId)
  | mark
  deriving DecidableEq, Repr

/-- A timeline entry (R96). The primary port is the port of the first owner (R97). -/
structure Entry where
  action    : Action
  target    : StageTime
  fire      : StageTime
  ideal     : StageTime
  send      : StageTime
  owners    : List OwnerRef
  merged    : Bool
  retimed   : Bool
  immediate : Bool
  deriving DecidableEq, Repr

/-- A member of the energised set (R114); `till` is its energised-until, absent for a hold member. -/
structure Member where
  chan : ChanId
  till : Option StageTime
  deriving DecidableEq, Repr

/-- The system settings (R134). -/
structure Settings where
  horizon       : Nat
  tolerance     : Nat
  mergeWindow   : Nat
  reportWindow  : Nat
  supplyLimit   : Nat
  accentBoost   : Nat
  outlierLimit  : Nat
  highMark      : Nat
  bitRate       : Nat
  gapBits       : Nat
  monitorWindow : Nat
  deriving DecidableEq, Repr

/-! ### The drive chains (R136 to R153) -/

/-- Drive frames (R141). -/
inductive DriveFrame where
  | fire (board : Fin 4) (output : Fin 8) (tag : BitVec 2) (pulse : Nat)
  | holdOn (board : Fin 4) (output : Fin 8) (tag : BitVec 2) (level : Nat)
  | holdOff (board : Fin 4) (output : Fin 8) (tag : BitVec 2)
  | ping (board : Fin 4)
  | safeAll
  deriving DecidableEq, Repr

/-- The kinds of report that reach the report handler (R143, R154). -/
inductive ReportKind where
  | contact (tag : BitVec 2) (flight : Nat)
  | noContact (tag : BitVec 2)
  | coilOpen (tag : BitVec 2)
  | coilShort (tag : BitVec 2)
  | jam
  deriving DecidableEq, Repr

/-- A report on the report queue, with the stage time at which it was placed (R145, R154). -/
structure Report where
  kind   : ReportKind
  board  : Fin 4
  output : Fin 8
  placed : StageTime
  deriving DecidableEq, Repr

/-- Scan kinds (R136). -/
inductive ScanKind where
  | startUp
  | request
  deriving DecidableEq, Repr

/-- A scan in progress (R136): for each board collected, its hold mask. `listens` says of each board whether its
HELLO is collected: of all of them, until the entry into the safe state closes some (R147, R151). -/
structure Scan where
  start   : StageTime
  kind    : ScanKind
  found   : Vector (Option Byte) 4
  listens : Vector Bool 4
  deriving DecidableEq, Repr

/-- A drive chain (R136). `sending` is the frame in transmission with the stage time of its start; `boards` is the
present-board set with the hold masks; `lastTake` is the handler's previous take (R154, log 10); `lastSent` is the
last word sent whole on data out (R203). -/
structure Chain where
  queue       : List DriveFrame
  sending     : Option (DriveFrame × StageTime)
  busyUntil   : Option StageTime
  reports     : List Report
  lastTake    : Option StageTime
  boards      : Vector (Option Byte) 4
  scan        : Option Scan
  checkErrors : Nat
  stale       : Nat
  lost        : Nat
  overflow    : Bool
  lastSent    : Option (BitVec 32)
  deriving DecidableEq, Repr

/-- The timing monitor (R165). -/
structure Monitor where
  accLateness  : Vector Nat 8
  accLanding   : Vector Nat 8
  pubLateness  : Vector Nat 8
  pubLanding   : Vector Nat 8
  publications : BitVec 16
  nextExpiry   : StageTime
  deriving DecidableEq, Repr

/-- The whole part, with the queue of commands that wait. -/
structure State where
  now         : StageTime
  resetLow    : Bool
  safeLow     : Bool
  supplyLow   : Bool
  sagLatch    : Bool
  clock       : Clock
  channels    : Vector Channel 128
  ports       : Vector PortRec 3
  timeline    : List Entry
  energised   : List Member
  settings    : Settings
  nextCooling : StageTime
  chains      : Vector Chain 4
  monitor     : Monitor
  freeCount   : Nat
  pending     : List Instr
  deriving DecidableEq, Repr

/-! ### The state after reset -/

/-- The beat clock after a pin reset (R21). -/
def Clock.reset : Clock :=
  { tB := 0, running := false, pos := 0, rate := 1649267442, ramp := .none, clamped := false,
    placeRefused := false, meter := 4, pendingMeter := none, bar := 0, beat := 0, cues := [],
    sync := none, beatout := none, nextBeat := 500 }

/-- The knots after a pin reset (R27). -/
def Channel.resetKnots : Vector Knot 8 :=
  #v[⟨40, 3000⟩, ⟨70, 2600⟩, ⟨100, 2250⟩, ⟨140, 1950⟩, ⟨190, 1700⟩, ⟨250, 1500⟩, ⟨320, 1350⟩, ⟨400, 1250⟩]

/-- A channel after a pin reset (R27, R40). -/
def Channel.reset : Channel :=
  { presence := .absent, cause := none, kind := none, knots := Channel.resetKnots,
    scalars := { pulseMin := 20, pulseMax := 1200, recovery := 40, heatLimit := 20000, coolingRate := 8,
                 adaptShift := 3, missLimit := 3 },
    heat := 0, misses := 0, outliers := 0, readyAfter := none, slot := none, tag := 0, hold := none,
    lastFlight := none, strikes := 0 }

/-- The reader of a port after a pin reset or its PORT_RESET (R79). -/
def Reader.reset : Reader :=
  { state := .idle, queue := [], opened := [], level := 128, chainEnd := none, nextSerial := 0, discards := 0 }

/-- The completion and notice unit after a pin reset or its port's PORT_RESET (R183). -/
def NoticeUnit.reset : NoticeUnit :=
  { records := [], lost := 0, filter := .exceptions, mark := 48, enables := 0, latches := 0, falling := 0,
    beatWindow := none }

/-- The link of a port after a pin reset (R184, R189, R195). -/
def Link.reset : Link :=
  { isOpen := false, csLow := false, stored := [], total := 0, partialByte := false, reply := none,
    sdo := [], sdoBits := [] }

/-- The cue match after a pin reset or a PORT_RESET (R21). -/
def CueMatch.reset : CueMatch := { bar := none, beat := none, enabled := false }

/-- A port after a pin reset. The pass timer's value is the model's until the release sets it (log 3). -/
def PortRec.reset : PortRec :=
  { reader := Reader.reset, unit := NoticeUnit.reset, link := Link.reset, mem := [], cue := CueMatch.reset,
    beatMode := .off, nextPass := 500 }

/-- The system settings after a pin reset (R134). -/
def Settings.reset : Settings :=
  { horizon := 100, tolerance := 5000, mergeWindow := 6000, reportWindow := 100, supplyLimit := 4,
    accentBoost := 12, outlierLimit := 500, highMark := 192, bitRate := 2, gapBits := 8, monitorWindow := 10 }

/-- A chain after a pin reset (R136). -/
def Chain.reset : Chain :=
  { queue := [], sending := none, busyUntil := none, reports := [], lastTake := none,
    boards := Vector.replicate 4 none, scan := none, checkErrors := 0, stale := 0, lost := 0, overflow := false,
    lastSent := none }

/-- The timing monitor after a pin reset: the first expiry is 10 s after the release (R165). -/
def Monitor.reset : Monitor :=
  { accLateness := Vector.replicate 8 0, accLanding := Vector.replicate 8 0, pubLateness := Vector.replicate 8 0,
    pubLanding := Vector.replicate 8 0, publications := 0, nextExpiry := 10000000 }

/-- The part right after a pin reset: every block at its pin-reset values, RESET still asserted (R195, log 4). -/
def State.reset : State :=
  { now := 0, resetLow := true, safeLow := false, supplyLow := false, sagLatch := false,
    clock := Clock.reset, channels := Vector.replicate 128 Channel.reset,
    ports := Vector.replicate 3 PortRec.reset, timeline := [], energised := [], settings := Settings.reset,
    nextCooling := 10000, chains := Vector.replicate 4 Chain.reset, monitor := Monitor.reset,
    freeCount := 0, pending := [] }

end Sys2Proof.Machine
end

