-- ==== Sys2Proof/Machine/Ops.lean ====
section
/-! DEFINITION. Shared operations: comparing stage times and ticks, phrase memory bytes, reaching into the parts of
State, notices and the ATN lines. -/

namespace Sys2Proof.Machine

/-! ### Stage times and ticks (Conventions) -/

/-- How far `b` lies after `a`, modulo 2^32. -/
def since (a b : BitVec 32) : Nat := (b - a).toNat

/-- `a` is earlier than `b`: (b − a) mod 2^32 lies in 1 to 2^31 − 1. -/
def earlier (a b : BitVec 32) : Bool := 1 ≤ since a b && since a b ≤ 2147483647

/-- `a` is later than `b`. -/
def later (a b : BitVec 32) : Bool := earlier b a

/-- `a` is at or before `b`. -/
def atOrBefore (a b : BitVec 32) : Bool := a == b || earlier a b

/-- The later of two times. -/
def laterOf (a b : BitVec 32) : BitVec 32 := if later b a then b else a

/-- The time `n` after `t`. -/
def plus (t : BitVec 32) (n : Nat) : BitVec 32 := t + BitVec.ofNat 32 n

/-- The time `n` before `t`. -/
def minus (t : BitVec 32) (n : Nat) : BitVec 32 := t - BitVec.ofNat 32 n

/-- Whether a stored end time has been reached. -/
def endReached (now : StageTime) (t : Option StageTime) : Bool :=
  match t with
  | some t => atOrBefore t now
  | none => false

/-- A count that stops at `cap`. -/
def satSucc (n cap : Nat) : Nat := if n < cap then n + 1 else n

/-- A value taken into the range `lo` to `hi` (Conventions, "clamped to"). -/
def clampNat (lo hi n : Nat) : Nat := if n < lo then lo else if hi < n then hi else n

/-- `x` placed in `l` after the last element of `l` that `before` puts before it. -/
def placeAfter {α : Type} (before : α → Bool) (x : α) : List α → List α
  | [] => [x]
  | y :: ys => if (y :: ys).any before then y :: placeAfter before x ys else x :: y :: ys

/-- The first element of `l` that fits, with the elements before it and after it. -/
def splitFirst {α : Type} (fits : α → Bool) : List α → Option (List α × α × List α)
  | [] => none
  | y :: ys =>
    if fits y then some ([], y, ys)
    else match splitFirst fits ys with
      | some (pre, x, post) => some (y :: pre, x, post)
      | none => none

/-! ### Phrase memory (R41) -/

/-- The byte at a byte address of a region; an unlisted address reads 0, the reset contents of R41. -/
def readByte : List Host.Cell → Nat → Byte
  | [], _ => 0
  | (k, v) :: m, a => if k = a then v else readByte m a

/-- Writing one byte, keeping the canonical form: a byte of 0 is not listed. -/
def writeByte : List Host.Cell → Nat → Byte → List Host.Cell
  | [], a, b => if b = 0 then [] else [(a, b)]
  | (k, v) :: m, a, b =>
    if a < k then (if b = 0 then (k, v) :: m else (a, b) :: (k, v) :: m)
    else if a = k then (if b = 0 then m else (a, b) :: m)
    else (k, v) :: writeByte m a b

/-- Every listed address is above `lo` and no listed byte is 0, addresses strictly rising. -/
def Memory.wfFrom : Option Nat → List Host.Cell → Bool
  | _, [] => true
  | lo, (k, v) :: m =>
    (match lo with | none => true | some l => decide (l < k)) && v != 0 && Memory.wfFrom (some k) m

/-- The canonical form of a region: addresses strictly rising, no entry equal to what an unlisted one reads. -/
def Memory.wf (m : List Host.Cell) : Bool := Memory.wfFrom none m

/-- Writing bytes at consecutive byte addresses, the first at `a`. -/
def writeBytes (m : List Host.Cell) (a : Nat) : List Byte → List Host.Cell
  | [] => m
  | b :: bs => writeBytes (writeByte m a b) (a + 1) bs

/-- `n` bytes at consecutive byte addresses from `a` on. -/
def readBytes (m : List Host.Cell) (a : Nat) : Nat → List Byte
  | 0 => []
  | n + 1 => readByte m a :: readBytes m (a + 1) n

/-- The eight bytes of the cell at cell address `a` (R41). -/
def readCell (m : List Host.Cell) (a : Nat) : List Byte := readBytes m (8 * a) 8

/-! ### Reaching into State -/

/-- The record of port `p`. -/
def State.port (s : State) (p : Port) : PortRec := s.ports[p]

/-- State with the record of port `p` changed by `f`. -/
def State.modPort (s : State) (p : Port) (f : PortRec → PortRec) : State :=
  { s with ports := s.ports.set p.val (f s.ports[p]) p.isLt }

/-- State with every port's record changed by `f`. -/
def State.modPorts (s : State) (f : PortRec → PortRec) : State := { s with ports := s.ports.map f }

/-- The record of channel `c`. -/
def State.chan (s : State) (c : ChanId) : Channel := s.channels[c]

/-- State with the record of channel `c` changed by `f`. -/
def State.modChan (s : State) (c : ChanId) (f : Channel → Channel) : State :=
  { s with channels := s.channels.set c.val (f s.channels[c]) c.isLt }

/-- The record of chain `d`. -/
def State.chain (s : State) (d : ChainId) : Chain := s.chains[d]

/-- State with the record of chain `d` changed by `f`. -/
def State.modChain (s : State) (d : ChainId) (f : Chain → Chain) : State :=
  { s with chains := s.chains.set d.val (f s.chains[d]) d.isLt }

/-- State with the beat clock changed by `f`. -/
def State.modClock (s : State) (f : Clock → Clock) : State := { s with clock := f s.clock }

/-- State with the reader of port `p` changed by `f`. -/
def State.modReader (s : State) (p : Port) (f : Reader → Reader) : State :=
  s.modPort p fun r => { r with reader := f r.reader }

/-- The chain that serves a channel: c div 32 (Conventions). -/
def chainOf (c : ChanId) : ChainId := ⟨c.val / 32, by omega⟩

/-- The board of a channel on its chain: (c mod 32) div 8. -/
def boardOf (c : ChanId) : Fin 4 := ⟨c.val % 32 / 8, by omega⟩

/-- The output of a channel on its board: c mod 8. -/
def outputOf (c : ChanId) : Fin 8 := ⟨c.val % 8, by omega⟩

/-- The channel at an output of a board of a chain: 32 × d + 8 × b + o (R154). -/
def chanAt (d : ChainId) (b : Fin 4) (o : Fin 8) : ChanId := ⟨32 * d.val + 8 * b.val + o.val, by omega⟩

/-- The frame time Tf: (32 + gap bits) / bit rate in µs, rounded up (R85). -/
def Settings.frameTime (g : Settings) : Nat := (32 + g.gapBits + g.bitRate - 1) / g.bitRate

/-- The start-up interval: a scan of kind START_UP is in progress (R196). -/
def State.inStartUp (s : State) : Bool :=
  s.chains.any fun ch => match ch.scan with
    | some sc => sc.kind == .startUp
    | none => false

end Sys2Proof.Machine
end

