-- ==== Sys2Proof/Machine/Flags.lean ====
section
/-! DEFINITION. The notice block: sources, raising, edges of the level sources, and the ATN line (R175 to R182). -/

namespace Sys2Proof.Machine

/-- The fourteen notice sources (R175). -/
inductive Source where
  | readEnd | phraseDone | queueEmpty | portIdle | mark | exception | held
  | cue | beat | doneHigh | timelineHigh | channelFault | supply | safe
  deriving DecidableEq, Repr

/-- The number of a source (R175). -/
def Source.num : Source → Nat
  | .readEnd => 0 | .phraseDone => 1 | .queueEmpty => 2 | .portIdle => 3 | .mark => 4 | .exception => 5 | .held => 6
  | .cue => 7 | .beat => 8 | .doneHigh => 9 | .timelineHigh => 10 | .channelFault => 11 | .supply => 12 | .safe => 13

/-- The bit of a level source among the four edge selections (R197, NOTE_EDGE); absent for the other sources. -/
def Source.edgeBit : Source → Option Nat
  | .doneHigh => some 0 | .timelineHigh => some 1 | .supply => some 2 | .safe => some 3
  | _ => none

/-- Whether a source is enabled. -/
def NoticeUnit.enabled (u : NoticeUnit) (src : Source) : Bool := u.enables.getLsbD src.num

/-- Whether a source's latch is set. -/
def NoticeUnit.latched (u : NoticeUnit) (src : Source) : Bool := u.latches.getLsbD src.num

/-- The bit of a source in the enables and the latches. -/
def Source.bit (src : Source) : BitVec 14 := BitVec.twoPow 14 src.num

/-- Raising a source: an enabled source latches (R176), and BEAT starts its 5 ms window afresh (R178). -/
def NoticeUnit.raise (now : StageTime) (src : Source) (u : NoticeUnit) : NoticeUnit :=
  if u.enabled src then
    { u with latches := u.latches ||| src.bit,
             beatWindow := if src = .beat then some (plus now 5000) else u.beatWindow }
  else u

/-- An edge of a level source, rising or falling: it raises the source when the source selects it (R177). -/
def NoticeUnit.edge (now : StageTime) (src : Source) (rising : Bool) (u : NoticeUnit) : NoticeUnit :=
  match src.edgeBit with
  | some i => if u.falling.getLsbD i != rising then u.raise now src else u
  | none => u

/-- Judging a level source after an event: a change of its condition from `was` to `is` is an edge (R177). -/
def NoticeUnit.judge (now : StageTime) (src : Source) (was is : Bool) (u : NoticeUnit) : NoticeUnit :=
  if was = is then u else u.edge now src is

/-- The DONE_HIGH condition: the list holds at least as many records as the mark (R174). -/
def NoticeUnit.doneHigh (u : NoticeUnit) : Bool := decide (u.mark ≤ u.records.length)

/-- Whether the unit's ATN line is asserted: some latch is set, BEAT counting only while its window runs (R182). -/
def NoticeUnit.atn (u : NoticeUnit) : Bool :=
  (u.latches &&& ~~~Source.beat.bit) != 0 || (u.latched .beat && u.beatWindow.isSome)

/-- A port with its notice unit changed. -/
def PortRec.modUnit (f : NoticeUnit → NoticeUnit) (r : PortRec) : PortRec := { r with unit := f r.unit }

/-- Raising a source in one port. -/
def State.raise (s : State) (p : Port) (src : Source) : State :=
  s.modPort p (PortRec.modUnit (NoticeUnit.raise s.now src))

/-- Raising a source in each of the three ports. -/
def State.raiseAll (s : State) (src : Source) : State :=
  s.modPorts (PortRec.modUnit (NoticeUnit.raise s.now src))

/-- An edge of a level source whose condition the whole part shares (R177). -/
def State.edgeAll (s : State) (src : Source) (rising : Bool) : State :=
  s.modPorts (PortRec.modUnit (NoticeUnit.edge s.now src rising))

/-- The occupancy-high condition of a timeline of `n` entries (R111). -/
def occupancyHigh (s : State) (n : Nat) : Bool := decide (s.settings.highMark ≤ n)

/-- State with the timeline replaced, the occupancy-high condition judged again in every port (R111). -/
def State.withTimeline (s : State) (l : List Entry) : State :=
  ({ s with timeline := l }).modPorts
    (PortRec.modUnit (NoticeUnit.judge s.now .timelineHigh (occupancyHigh s s.timeline.length) (occupancyHigh s l.length)))

end Sys2Proof.Machine
end

