-- ==== Sys2Proof/Machine/Operands.lean ====
section
/-! DEFINITION. Operand forms: payload fields, the CRC-8, cells, drive frames and report frames (chapter 12). -/

namespace Sys2Proof.Machine

/-! ### Bytes of payloads (R197): most significant byte first -/

/-- Byte `i` of a payload. -/
def byteAt (l : List Byte) (i : Nat) : Byte := l.getD i 0

/-- The 2-byte field at byte `i`. -/
def be16 (l : List Byte) (i : Nat) : BitVec 16 := byteAt l i ++ byteAt l (i + 1)

/-- The 4-byte field at byte `i`. -/
def be32 (l : List Byte) (i : Nat) : BitVec 32 :=
  ((byteAt l i ++ byteAt l (i + 1)) ++ byteAt l (i + 2)) ++ byteAt l (i + 3)

/-- `n` in `k` bytes, most significant first. -/
def bytesOf : Nat → Nat → List Byte
  | 0, _ => []
  | k + 1, n => BitVec.ofNat 8 (n / 256 ^ k) :: bytesOf k n

/-- A value of 2 bytes. -/
def bytes16 (x : BitVec 16) : List Byte := bytesOf 2 x.toNat

/-- A value of 4 bytes. -/
def bytes32 (x : BitVec 32) : List Byte := bytesOf 4 x.toNat

/-- A flag or a yes-or-no answer (R198). -/
def flagByte (b : Bool) : List Byte := [if b then 1 else 0]

/-- An optional field whose coding is `k` bytes long: a presence byte, then the field or `k` bytes of 0 (R198). -/
def optional {α : Type} (k : Nat) (enc : α → List Byte) : Option α → List Byte
  | some x => 1 :: enc x
  | none => 0 :: List.replicate k 0

/-- A list whose length varies: a byte that counts its items, then the items (R198). -/
def counted {α : Type} (enc : α → List Byte) (l : List α) : List Byte :=
  BitVec.ofNat 8 l.length :: l.flatMap enc

/-! ### The check (R199) -/

/-- One shift of the CRC-8 register. -/
def crcShift (r : Byte) : Byte := if r.msb then (r <<< 1) ^^^ 7 else r <<< 1

/-- The register after one more byte. -/
def crcByte (r b : Byte) : Byte :=
  crcShift (crcShift (crcShift (crcShift (crcShift (crcShift (crcShift (crcShift (r ^^^ b))))))))

/-- The CRC-8 of a run of bytes. -/
def crc8 (l : List Byte) : Byte := l.foldl crcByte 0

/-! ### Cells (R200, R201) -/

/-- A cell as the reader and PHRASE_POST read it (R44). Offsets and lengths are 0 to 268,435,455. -/
inductive Cell where
  | endCell
  | head (h : Head)
  | stroke (c : ChanId) (velocity : Nat) (mark accent : Bool) (offset : Nat)
  | hold (c : ChanId) (drop : Bool) (level : Nat) (mark : Bool) (offset : Nat)
  | link (target : Nat)
  | setLevel (level offset : Nat)
  | setTempo (tempo duration offset : Nat)
  | rest (mark : Bool) (offset : Nat)
  | undefined
  deriving DecidableEq, Repr

/-- The channel field: bits 6 to 0 of its byte (R201). -/
def chanField (b : Byte) : ChanId := ⟨b.toNat % 128, by omega⟩

/-- The cell its eight bytes spell (R200, R201). -/
def decodeCell (l : List Byte) : Cell :=
  let b0 := byteAt l 0
  let low28 := (be32 l 4).toNat % 268435456
  match b0.toNat % 16 with
  | 0 => .endCell
  | 1 => .head { clock := if b0.getLsbD 4 then .free else .beat, overhang := b0.getLsbD 5, stopOnFault := b0.getLsbD 6,
                 repeats := (byteAt l 1).toNat, length := low28 }
  | 2 => .stroke (chanField (byteAt l 1)) ((byteAt l 2).toNat % 128) (b0.getLsbD 4) (b0.getLsbD 5) low28
  | 3 => .hold (chanField (byteAt l 1)) (b0.getLsbD 5) (byteAt l 2).toNat (b0.getLsbD 4) low28
  | 4 => .link ((be16 l 2).toNat % 2048)
  | 5 => .setLevel (byteAt l 2).toNat low28
  | 6 => .setTempo ((be16 l 1).toNat % 32768) (b0.toNat / 16 * 256 + (byteAt l 3).toNat) low28
  | 7 => .rest (b0.getLsbD 4) low28
  | _ => .undefined

/-! ### Drive frames and report frames (R203, R204) -/

/-- The code of a drive frame's kind (R203). -/
def DriveFrame.code : DriveFrame → Nat
  | .fire .. => 1 | .holdOn .. => 2 | .holdOff .. => 3 | .ping _ => 4 | .safeAll => 7

/-- The upper 24 bits of a drive frame: kind, board, output, tag and value (R203). -/
def DriveFrame.upper : DriveFrame → Nat
  | .fire b o t pulse => 1 * 2097152 + b.val * 524288 + o.val * 65536 + t.toNat * 16384 + pulse
  | .holdOn b o t level => 2 * 2097152 + b.val * 524288 + o.val * 65536 + t.toNat * 16384 + level
  | .holdOff b o t => 3 * 2097152 + b.val * 524288 + o.val * 65536 + t.toNat * 16384
  | .ping b => 4 * 2097152 + b.val * 524288
  | .safeAll => 7 * 2097152

/-- The 32 bits of a drive frame, its CRC-8 over the three upper bytes in bits 7 to 0 (R199, R203). -/
def DriveFrame.word (f : DriveFrame) : BitVec 32 :=
  BitVec.ofNat 24 f.upper ++ crc8 (bytesOf 3 f.upper)

/-- What a report frame says (R203): a HELLO with its board and hold mask, or a report for the report handler. -/
inductive Received where
  | hello (board : Fin 4) (mask : Byte)
  | report (kind : ReportKind) (board : Fin 4) (output : Fin 8)
  deriving DecidableEq, Repr

/-- A report frame with bit 31 clear: the kind in bits 30 to 28, board 27 and 26, output 25 to 23, tag 22 and 21. -/
def decodePlainReport (w : BitVec 32) : Option Received :=
  let board : Fin 4 := (w.extractLsb' 26 2).toFin
  let output : Fin 8 := (w.extractLsb' 23 3).toFin
  let tag := w.extractLsb' 21 2
  match (w.extractLsb' 28 3).toNat with
  | 1 => some (.report (.noContact tag) board output)
  | 2 => some (.report (.coilOpen tag) board output)
  | 3 => some (.report (.coilShort tag) board output)
  | 4 => some (.report .jam board output)
  | 5 => some (.hello board (w.extractLsb' 8 8))
  | _ => none

/-- What 32 bits on data-in say; none where the check fails or the kind is no report kind (R144 step 1, R204). -/
def decodeReport (w : BitVec 32) : Option Received :=
  if crc8 [w.extractLsb' 24 8, w.extractLsb' 16 8, w.extractLsb' 8 8] != w.extractLsb' 0 8 then none
  else if w.msb then
    some (.report (.contact (w.extractLsb' 24 2) (w.extractLsb' 8 16).toNat)
      (w.extractLsb' 29 2).toFin (w.extractLsb' 26 3).toFin)
  else decodePlainReport w

/-! ### Reply frames (R189, R197) -/

/-- The byte of a reply code (R197). -/
def ReplyCode.byte : ReplyCode → Byte
  | .ok => 0x01 | .clamped => 0x02 | .badFrame => 0x81 | .unknown => 0x82 | .range => 0x83 | .busy => 0x84
  | .queueFull => 0x85 | .full => 0x86 | .notReady => 0x87 | .clockShared => 0x88 | .state => 0x89
  | .badPhrase => 0x8A | .safe => 0x8B

/-- A frame around a first byte and a payload: that byte, the length, the payload and the check (R186, R189). -/
def frameOf (first : Byte) (payload : List Byte) : List Byte :=
  let body := first :: BitVec.ofNat 8 payload.length :: payload
  body ++ [crc8 body]

/-- The bytes of a reply frame (R189). -/
def Reply.frame (r : Reply) : List Byte := frameOf r.code.byte r.payload

/-- The bytes the reply buffer presents on SDO (R189). -/
def replyBytes : Option Reply → List Byte
  | some r => r.frame
  | none => []

/-- A reply with an empty payload. -/
def Reply.bare (c : ReplyCode) : Reply := { code := c, payload := [] }

end Sys2Proof.Machine
end

