-- ==== Sys2Proof/Machine/Completions.lean ====
section
/-! DEFINITION. Port states, the completion record and the delivery of outcomes (R55, R71, R75, R169 to R172). -/

namespace Sys2Proof.Machine

/-! ### Outcomes (R170, R202) -/

/-- The code of an outcome (R202). -/
def OutcomeCode.num : OutcomeCode → Nat
  | .struck => 1 | .silent => 2 | .fault => 3 | .noReport => 4 | .late => 5 | .recovery => 6 | .thermal => 7
  | .supply => 8 | .safed => 9 | .withdrawn => 10 | .absent => 11 | .wrongKind => 12 | .muted => 13 | .clipped => 14
  | .absorbed => 15 | .holdSent => 16 | .holdDropped => 17 | .marked => 18 | .tempoApplied => 19 | .cueFull => 20
  | .cueDropped => 21

/-- An outcome is an exception unless it is STRUCK, HOLD_SENT, MARKED or TEMPO_APPLIED (R170). -/
def OutcomeCode.isException : OutcomeCode → Bool
  | .struck | .holdSent | .marked | .tempoApplied => false
  | _ => true

/-- The outcomes that hold the port of a STOP_ON_FAULT phrase (R75). -/
def OutcomeCode.stopsOnFault : OutcomeCode → Bool
  | .fault | .silent | .noReport => true
  | _ => false

/-- What an outcome carries besides its owner's own figures (R156, R171). `landed` is the measured flight in pu and the
landing error in µs. -/
structure OutcomeData where
  code      : OutcomeCode
  chan      : Option ChanId
  vEff      : Nat
  pulse     : Nat
  lateness  : Option Nat
  landed    : Option (Nat × Int)
  merged    : Bool
  retimed   : Bool
  immediate : Bool
  degraded  : Bool
  deriving DecidableEq, Repr

/-- An outcome that carries no figures and no flags. -/
def OutcomeData.plain (code : OutcomeCode) (chan : Option ChanId) : OutcomeData :=
  { code := code, chan := chan, vEff := 0, pulse := 0, lateness := none, landed := none,
    merged := false, retimed := false, immediate := false, degraded := false }

/-- A signed count of µs saturated to −32,767 to 32,767 (R171). -/
def saturate (x : Int) : Int := if x < -32767 then -32767 else if 32767 < x then 32767 else x

/-- The completion record of an outcome (R171). -/
def completionOf (now : StageTime) (ref : OwnerRef) (o : OutcomeData) : Completion :=
  { outcome := o.code, merged := o.merged, degraded := o.degraded, retimed := o.retimed, immediate := o.immediate,
    hasPhrase := ref.phrase.isSome, hasChannel := o.chan.isSome, hasFlight := o.landed.isSome,
    serial := match ref.phrase with | some ph => ph.serial | none => 0,
    addr := match ref.phrase with | some ph => ph.addr | none => 0,
    channel := match o.chan with | some c => c.val | none => 0,
    vEff := o.vEff, pulse := o.pulse,
    lateness := match o.lateness with | some l => saturate l | none => -1,
    landing := match o.landed with | some (_, e) => saturate e | none => 0,
    flight := match o.landed with | some (f, _) => f | none => 0,
    time := now,
    pass := match ref.phrase with | some _ => ref.pass | none => 0 }

/-! ### The completion list (R172) -/

/-- A record offered to the list: discarded by the filter, appended with DONE_HIGH judged, or lost (R172, R174). -/
def NoticeUnit.offerRecord (now : StageTime) (rec : Completion) (u : NoticeUnit) : NoticeUnit :=
  if u.filter = .exceptions && !rec.outcome.isException then u
  else if u.records.length < 64 then
    NoticeUnit.judge now .doneHigh u.doneHigh (NoticeUnit.doneHigh { u with records := u.records ++ [rec] })
      { u with records := u.records ++ [rec] }
  else { u with lost := satSucc u.lost 65535 }

/-! ### The port state (R55) -/

/-- The current phrase: the record that is READING (R57). -/
def Reader.current (rd : Reader) : Option OpenRec := rd.opened.find? fun o => o.reading == .reading

/-- Whether the port is HELD. -/
def Reader.isHeld (rd : Reader) : Bool :=
  match rd.state with
  | .held _ => true
  | _ => false

/-- The state a port that is not HELD settles to: PLAYING, DRAINING or IDLE, the first that fits (R55). -/
def Reader.settledState (rd : Reader) : PortState :=
  if rd.current.isSome || !rd.queue.isEmpty then .playing
  else if !rd.opened.isEmpty then .draining
  else .idle

/-- A port with its reader changed. -/
def PortRec.modReader (f : Reader → Reader) (r : PortRec) : PortRec := { r with reader := f r.reader }

/-- Settling, also of a port that is just leaving HELD; becoming IDLE raises PORT_IDLE (R55). -/
def PortRec.settleNow (now : StageTime) (r : PortRec) : PortRec :=
  let settled := { r with reader := { r.reader with state := r.reader.settledState } }
  if r.reader.settledState = .idle && r.reader.state != .idle then settled.modUnit (NoticeUnit.raise now .portIdle)
  else settled

/-- Settling a port that is not HELD (R55). -/
def PortRec.settle (now : StageTime) (r : PortRec) : PortRec :=
  if r.reader.isHeld then r else r.settleNow now

/-- Entering HELD with a cause; a port already HELD keeps its cause and raises nothing (R55, R75, R76). -/
def PortRec.hold (now : StageTime) (cause : HoldCause) (r : PortRec) : PortRec :=
  if r.reader.isHeld then r
  else (r.modReader fun rd => { rd with state := .held cause }).modUnit (NoticeUnit.raise now .held)

/-! ### A phrase's accounts (R71) -/

/-- The open record with a serial. -/
def Reader.record (rd : Reader) (serial : BitVec 8) : Option OpenRec := rd.opened.find? fun o => o.serial == serial

/-- A reader with the open records of a serial changed. -/
def Reader.modRecord (serial : BitVec 8) (f : OpenRec → OpenRec) (rd : Reader) : Reader :=
  { rd with opened := rd.opened.map fun o => if o.serial = serial then f o else o }

/-- A phrase is done when its record has left READING and nothing is outstanding: PHRASE_DONE is raised, the record
leaves the list, and a port that is not HELD settles (R71). -/
def PortRec.finishIfDone (now : StageTime) (serial : BitVec 8) (r : PortRec) : PortRec :=
  match r.reader.record serial with
  | some o =>
    if o.reading != .reading && o.outstanding = 0 then
      ((r.modUnit (NoticeUnit.raise now .phraseDone)).modReader fun rd =>
        { rd with opened := rd.opened.filter fun x => x.serial != serial }).settle now
    else r
  | none => r

/-- An outcome settles one reference of a phrase: the outstanding count falls, an exception is counted, and the phrase
may be done (R71). -/
def PortRec.account (now : StageTime) (serial : BitVec 8) (exception : Bool) (r : PortRec) : PortRec :=
  (r.modReader (Reader.modRecord serial fun o =>
    { o with outstanding := o.outstanding - 1,
             exceptions := if exception then satSucc o.exceptions 65535 else o.exceptions })).finishIfDone now serial

/-- Whether a phrase has STOP_ON_FAULT set (R75). -/
def Reader.stopsOnFault (rd : Reader) (serial : BitVec 8) : Bool :=
  match rd.record serial with
  | some o => o.stopOnFault
  | none => false

/-! ### Delivery (R169) -/

/-- Steps 1 to 3 of a delivery: the record is offered, an exception raises EXCEPTION, a MARK flag raises MARK. -/
def NoticeUnit.take (now : StageTime) (ref : OwnerRef) (o : OutcomeData) (u : NoticeUnit) : NoticeUnit :=
  let u1 := u.offerRecord now (completionOf now ref o)
  let u2 := if o.code.isException then u1.raise now .exception else u1
  if ref.mark then u2.raise now .mark else u2

/-- Steps 4 and 5 of a delivery that carries a phrase serial: the STOP_ON_FAULT check, then the accounts. -/
def PortRec.settleOutcome (now : StageTime) (serial : BitVec 8) (code : OutcomeCode) (r : PortRec) : PortRec :=
  (if code.stopsOnFault && r.reader.stopsOnFault serial then r.hold now .faultStop else r).account now serial
    code.isException

/-- The delivery of an outcome at its port (R169). -/
def PortRec.deliver (now : StageTime) (ref : OwnerRef) (o : OutcomeData) (r : PortRec) : PortRec :=
  match ref.phrase with
  | some ph => (r.modUnit (NoticeUnit.take now ref o)).settleOutcome now ph.serial o.code
  | none => r.modUnit (NoticeUnit.take now ref o)

/-- The delivery of an outcome to the port of an owner reference. -/
def State.deliver (s : State) (ref : OwnerRef) (o : OutcomeData) : State :=
  s.modPort ref.port (PortRec.deliver s.now ref o)

/-- One outcome given to each owner reference, in list order (R116, R156). -/
def State.deliverAll (s : State) (owners : List OwnerRef) (o : OutcomeData) : State :=
  owners.foldl (fun st ref => st.deliver ref o) s

/-- The reference of an outcome that belongs to no owner reference (R130), and of an immediate request (R77). -/
def OwnerRef.bare (p : Port) : OwnerRef := { port := p, phrase := none, pass := 0, mark := false }

/-! ### The layout of a completion record (R202) -/

/-- `x` as a 2-byte two's complement field. -/
def signed16 (x : Int) : List Byte := bytes16 (BitVec.ofInt 16 x)

/-- The flags byte of a record (R202). -/
def Completion.flags (r : Completion) : Byte :=
  BitVec.ofNat 8 (r.merged.toNat + 2 * r.degraded.toNat + 4 * r.retimed.toNat + 8 * r.immediate.toNat +
    16 * r.hasPhrase.toNat + 32 * r.hasChannel.toNat + 64 * r.hasFlight.toNat)

/-- The twenty bytes of a record (R202). -/
def Completion.bytes (r : Completion) : List Byte :=
  [BitVec.ofNat 8 r.outcome.num, r.flags, r.serial] ++ bytesOf 2 r.addr ++
    [BitVec.ofNat 8 r.channel, BitVec.ofNat 8 r.vEff] ++ bytesOf 2 r.pulse ++ signed16 r.lateness ++
    signed16 r.landing ++ bytesOf 2 r.flight ++ bytes32 r.time ++ [BitVec.ofNat 8 r.pass]

end Sys2Proof.Machine
end

