-- ==== Sys2Proof/Machine/Requests.lean ====
section
/-! DEFINITION. Taking a request at a port, and its reply (R187, R189, R196). -/

namespace Sys2Proof.Machine

/-- The outcome of a step of this part. -/
abbrev Result := Host.Outcome State Fault Refusal

/-- What the owning block does with a request: the state it leaves, and its reply (R187 step 4). -/
abbrev Body := State → State × Reply

/-- A refusal: no state changes, and the reply carries the code (R188). -/
def refuse (code : ReplyCode) : Body := fun s => (s, Reply.bare code)

/-- An acceptance with the reply OK and an empty payload. -/
def accept (s : State) : State × Reply := (s, Reply.bare .ok)

/-- An acceptance with the reply OK and a payload. -/
def answer (s : State) (payload : List Byte) : State × Reply := (s, { code := .ok, payload := payload })

/-- OK, or CLAMPED when a value was taken into its range (R190). -/
def okOrClamped (wasClamped : Bool) : ReplyCode := if wasClamped then .clamped else .ok

/-- Replacing the reply buffer of a port (R189). -/
def State.reply (s : State) (p : Port) (r : Reply) : State :=
  s.modPort p fun rec => { rec with link := { rec.link with reply := some r } }

/-- A request taken at port `p`: nothing while RESET is asserted (R195), NOT_READY during the start-up interval (R196),
otherwise the owning block's work and its reply (R187). -/
def takeRequest (p : Port) (body : Body) (s : State) : State :=
  if s.resetLow then s
  else if s.inStartUp then s.reply p (Reply.bare .notReady)
  else (body s).1.reply p (body s).2

/-- A NOP taken at port `p`: OK in every state of the part, the start-up interval included (R191). -/
def takeNop (p : Port) (s : State) : State := if s.resetLow then s else s.reply p (Reply.bare .ok)

/-- An event of the part: nothing happens while RESET holds it at its pin-reset values (R195). -/
def unlessReset (f : State → State) (s : State) : State := if s.resetLow then s else f s

end Sys2Proof.Machine
end

