-- ==== Sys2Proof/Machine/Stroke.lean ====
section
/-! DEFINITION. Stroke arithmetic: velocity, curve, times, late check, landing error and the learning of flight
(chapter 05). -/

namespace Sys2Proof.Machine

/-- The effective velocity of a stroke, or none when the stroke is MUTED (R80). -/
def effectiveVelocity (velocity level : Nat) (accent : Bool) (boost : Nat) : Option Nat :=
  if velocity * level < 64 then none
  else some (clampNat 1 127 ((velocity * level + 64) / 128 + if accent then boost else 0))

/-- The curve segment of an effective velocity (R82). -/
def segmentOf (vEff : Nat) : Nat := min ((vEff - 1) / 18) 6

/-- The offset of an effective velocity within its segment (R82). -/
def offsetOf (vEff : Nat) : Nat := vEff - (1 + 18 * segmentOf vEff)

/-- The straight line between two knot values at offset `x`, its rise rounded half up (R83, R84). -/
def interpolate (a b x : Nat) : Int := (a : Int) + (((b : Int) - a) * x + 9) / 18

/-- Knot `k` of a channel; k is 0 to 7. -/
def Channel.knotAt (ch : Channel) (k : Nat) : Knot := if h : k < 8 then ch.knots[k] else { pulse := 0, flight := 0 }

/-- The figures a stroke of effective velocity `vEff` is armed with on a channel (R82, R83, R84). -/
def figuresOf (ch : Channel) (vEff : Nat) : Figures :=
  let i := segmentOf vEff
  let x := offsetOf vEff
  { vEff := vEff,
    pulse := clampNat ch.scalars.pulseMin ch.scalars.pulseMax
      (interpolate (ch.knotAt i).pulse (ch.knotAt (i + 1)).pulse x).toNat,
    flight := (interpolate (ch.knotAt i).flight (ch.knotAt (i + 1)).flight x).toNat,
    seg := i, off := x }

/-- The late check at arming: the send time, or none when the entry is LATE (R87). -/
def sendTime (tolerance : Nat) (now ideal : StageTime) : Option StageTime :=
  if later ideal now then some ideal
  else if tolerance < since ideal now then none
  else some now

/-- The landing error of a contact, a signed count of µs (R91). -/
def landingError (launch target : StageTime) (measured : Nat) : Int :=
  (plus launch (measured * 10) - target).toInt

/-- A value taken into 0 to 6000 pu, the range of a flight knot (R30, R94). -/
def clampFlight (x : Int) : Nat := if 6000 < x then 6000 else x.toNat

/-- The correction of the knots: the error by 2^a, rounded half up (R93). -/
def correction (e : Int) (a : Nat) : Int := (e + 2 ^ (a - 1)) / 2 ^ a

/-- The share of the correction that the lower knot takes (R94). -/
def lowerShare (delta : Int) (x : Nat) : Int := (delta * (18 - (x : Int)) + 9) / 18

/-- A channel with one knot's flight moved by a share, within its range (R94). -/
def Channel.moveKnot (ch : Channel) (k : Nat) (share : Int) : Channel :=
  if h : k < 8 then
    { ch with knots := ch.knots.set k { ch.knots[k] with flight := clampFlight ((ch.knots[k].flight : Int) + share) } h }
  else ch

/-- Flight adaptation: what a measured flight teaches the channel (R92 to R94). -/
def Channel.adapt (outlierLimit : Nat) (slot : FlightSlot) (measured : Nat) (ch : Channel) : Channel :=
  let e : Int := (measured : Int) - slot.fig.flight
  let a := ch.scalars.adaptShift
  if slot.degraded then ch
  else if outlierLimit < e.natAbs then { ch with outliers := satSucc ch.outliers 65535 }
  else if a = 0 then ch
  else
    let delta := correction e a
    let low := lowerShare delta slot.fig.off
    (ch.moveKnot slot.fig.seg low).moveKnot (slot.fig.seg + 1) (delta - low)

end Sys2Proof.Machine
end

