-- ==== Sys2Proof/Machine/Timeline.lean ====
section
/-! DEFINITION. The strike timeline: order, fair share, merging and withdrawal (chapter 06). -/

namespace Sys2Proof.Machine

/-- The channel an action names; a MARK names none (R96). -/
def Action.chan : Action → Option ChanId
  | .strike c _ => some c
  | .lift c _ => some c
  | .drop c => some c
  | .mark => none

/-- The effective velocity an entry's outcome carries (R171). -/
def Action.vEff : Action → Nat
  | .strike _ fig => fig.vEff
  | _ => 0

/-- The armed pulse an entry's outcome carries (R171). -/
def Action.pulse : Action → Nat
  | .strike _ fig => fig.pulse
  | _ => 0

/-- The primary port of an entry: the port of the first reference in its list (R97). -/
def Entry.primary (e : Entry) : Option Port := e.owners.head?.map OwnerRef.port

/-- An outcome given for an entry, with the entry's flags and figures as they stand (R96, R171). -/
def Entry.outcome (e : Entry) (code : OutcomeCode) (lateness : Option Nat) : OutcomeData :=
  { code := code, chan := e.action.chan, vEff := e.action.vEff, pulse := e.action.pulse, lateness := lateness,
    landed := none, merged := e.merged, retimed := e.retimed, immediate := e.immediate, degraded := false }

/-- Placing an entry: after every entry whose send time is equal or earlier (R98). -/
def placeEntry (e : Entry) (l : List Entry) : List Entry := placeAfter (fun x => atOrBefore x.send e.send) e l

/-- The primary count of a port (R100). -/
def primaryCount (l : List Entry) (p : Port) : Nat := l.countP fun e => e.primary == some p

/-- The shared use: the entries that stand beyond their ports' reserves (R100). -/
def sharedUse (l : List Entry) : Nat :=
  l.length - (min (primaryCount l 0) 32 + min (primaryCount l 1) 32 + min (primaryCount l 2) 32)

/-- Whether an insertion with primary port `p` is admitted (R101). -/
def admits (l : List Entry) (p : Port) : Bool :=
  decide (l.length < 256) && (decide (primaryCount l p < 32) || decide (sharedUse l < 160))

/-- The distance of two stage times, taken in either direction (R103). -/
def distance (a b : StageTime) : Nat := min (since a b) (since b a)

/-- Whether an entry is a merge partner for a stroke on `c` aimed at `target` (R103). -/
def isPartner (window : Nat) (c : ChanId) (target : StageTime) (e : Entry) : Bool :=
  match e.action with
  | .strike c' _ => c' == c && decide (distance e.target target ≤ window)
  | _ => false

/-- The times of an entry whose figures a merge has raised (R89): fire and ideal send from the kept target, and the
send time, never before the stage time of the merge. -/
def Entry.reaim (now : StageTime) (tf : Nat) (c : ChanId) (fig : Figures) (e : Entry) : Entry :=
  let fire := minus e.target (fig.flight * 10)
  let ideal := minus fire tf
  { e with action := .strike c fig, fire := fire, ideal := ideal, send := if later ideal now then ideal else now }

/-- A partner with one more reference: MERGED is set, and IMMEDIATE when the reference is an immediate request's (R104). -/
def Entry.joinedBy (ref : OwnerRef) (e : Entry) : Entry :=
  { e with owners := e.owners ++ [ref], merged := true, immediate := e.immediate || ref.phrase.isNone }

/-- What became of an offered entry (R101, R104, R105). -/
inductive Offered where
  | inserted
  | merged
  | absorbed
  | full
  deriving DecidableEq, Repr

/-- An offer that meets the room check (R101). -/
def insertOffer (e : Entry) (p : Port) (s : State) : Offered × State :=
  if admits s.timeline p then (.inserted, s.withTimeline (placeEntry e s.timeline)) else (.full, s)

/-- A stroke merging into its partner, which stands between `pre` and `post` (R104). A merge that raises the v_eff places
the entry again even where its send time stays as it was, for which R98 and R104 differ (DEDUCED, log 23). -/
def mergeInto (c : ChanId) (fig : Figures) (ref : OwnerRef) (pre : List Entry) (partner : Entry) (post : List Entry)
    (s : State) : State :=
  let joined := partner.joinedBy ref
  if partner.action.vEff < fig.vEff then
    s.withTimeline (placeEntry (joined.reaim s.now s.settings.frameTime c fig) (pre ++ post))
  else s.withTimeline (pre ++ joined :: post)

/-- An entry offered to the timeline with its one owner reference: merged, absorbed, inserted or refused (R103). -/
def offerEntry (e : Entry) (ref : OwnerRef) (s : State) : Offered × State :=
  match e.action with
  | .strike c fig =>
    match splitFirst (isPartner s.settings.mergeWindow c e.target) s.timeline with
    | some (pre, partner, post) =>
      if partner.owners.length < 4 then (.merged, mergeInto c fig ref pre partner post s) else (.absorbed, s)
    | none => insertOffer e ref.port s
  | _ => insertOffer e ref.port s

/-! ### Withdrawal (R107) -/

/-- An entry without the references that `takes` covers; none when no reference is left. -/
def Entry.without (takes : OwnerRef → Bool) (e : Entry) : Option Entry :=
  match e.owners.filter fun r => !takes r with
  | [] => none
  | r :: rs => some { e with owners := r :: rs }

/-- The entries that keep a reference, head to tail. -/
def withdrawFrom (takes : OwnerRef → Bool) (l : List Entry) : List Entry := l.filterMap (Entry.without takes)

/-- The withdrawn references with the outcomes they are given, head to tail and first to last (R107). -/
def withdrawnOutcomes (takes : OwnerRef → Bool) (code : OutcomeCode) (l : List Entry) : List (OwnerRef × OutcomeData) :=
  l.flatMap fun e => (e.owners.filter takes).map fun r => (r, e.outcome code none)

/-- A withdrawal that gives outcomes (R108, R110). -/
def State.withdraw (s : State) (takes : OwnerRef → Bool) (code : OutcomeCode) : State :=
  (withdrawnOutcomes takes code s.timeline).foldl (fun st x => st.deliver x.1 x.2)
    (s.withTimeline (withdrawFrom takes s.timeline))

/-- A withdrawal that gives none (R109). -/
def State.withdrawSilently (s : State) (takes : OwnerRef → Bool) : State :=
  s.withTimeline (withdrawFrom takes s.timeline)

/-- Whether some entry names channel `c` (R112). -/
def State.channelArmed (s : State) (c : ChanId) : Bool := s.timeline.any fun e => e.action.chan == some c

end Sys2Proof.Machine
end

