-- ==== Sys2Proof/Machine/Channels.lean ====
section
/-! DEFINITION. The channel table: presence, settling, faulting, the channel check and the requests CHAN_SETUP,
CHAN_CURVE, CHAN_RELEASE and CHAN_READ (chapter 02). -/

namespace Sys2Proof.Machine

/-- Settling from the board's entry in the present-board set: its hold mask, or absence (R24). -/
def Channel.settle (board : Option Byte) (output : Fin 8) (ch : Channel) : Channel :=
  match board with
  | none => { ch with presence := .absent, cause := none }
  | some mask =>
    match ch.kind with
    | none => { ch with presence := .unconfigured, cause := none }
    | some .hold =>
      if mask.getLsbD output.val then { ch with presence := .ready, cause := none }
      else { ch with presence := .unconfigured, cause := none, kind := none }
    | some .strike => { ch with presence := .ready, cause := none }

/-- The entry of a channel's board in its chain's present-board set, with the hold mask. -/
def State.boardEntry (s : State) (c : ChanId) : Option Byte := (s.chain (chainOf c)).boards[boardOf c]

/-- Settling a channel that is not FAULTED (R24). -/
def State.settleUnlessFaulted (s : State) (c : ChanId) : State :=
  s.modChan c fun ch => if ch.presence = .faulted then ch else ch.settle (s.boardEntry c) (outputOf c)

/-- Faulting a channel; one already FAULTED keeps its first cause (R23). -/
def Channel.fault (cause : FaultCause) (ch : Channel) : Channel :=
  if ch.presence = .faulted then ch else { ch with presence := .faulted, cause := some cause }

/-- A miss: the count rises, and at the miss limit the channel is faulted (R32, R161). -/
def Channel.miss (ch : Channel) : Channel :=
  let counted := { ch with misses := satSucc ch.misses 15 }
  if counted.scalars.missLimit ≤ counted.misses then counted.fault .misses else counted

/-- Whether a change of a channel record was an entry into FAULTED (R23). -/
def entersFaulted (before after : Channel) : Bool := before.presence != .faulted && after.presence == .faulted

/-- Whether a scan of a chain is in progress (R136). -/
def State.scanning (s : State) (d : ChainId) : Bool := (s.chain d).scan.isSome

/-- The channel check: none passes, otherwise the outcome it answers (R26). -/
def State.channelCheck (s : State) (c : ChanId) (kind : Kind) : Option OutcomeCode :=
  if s.scanning (chainOf c) then some .absent
  else match (s.chan c).presence with
    | .absent => some .absent
    | .unconfigured => some .absent
    | .faulted => some .fault
    | .ready => if (s.chan c).kind = some kind then none else some .wrongKind

/-- Whether a channel has work in progress: an entry, an occupied slot or a LIFTED hold (R28 check 2, R149). -/
def State.channelBusy (s : State) (c : ChanId) : Bool :=
  s.channelArmed c || (s.chan c).slot.isSome || (s.chan c).hold.isSome

/-! ### CHAN_SETUP (R28) -/

/-- The channel kind a code names (R197). -/
def kindOfCode (b : Byte) : Option Kind := if b = 1 then some .strike else if b = 2 then some .hold else none

/-- A value lies in a range. -/
def inRange (lo hi : Nat) (n : Nat) : Bool := decide (lo ≤ n) && decide (n ≤ hi)

/-- Each scalar within its range, and pulse min not above pulse max (R28 check 1, section 2.1). -/
def setupInRanges (f : SetupFields) : Bool :=
  inRange 5 2000 f.pulseMin.toNat && inRange 5 2000 f.pulseMax.toNat && inRange 5 500 f.recovery.toNat &&
    inRange 100 65535 f.heatLimit.toNat && inRange 1 255 f.coolingRate.toNat && inRange 0 4 f.adaptShift.toNat &&
    inRange 1 15 f.missLimit.toNat && decide (f.pulseMin.toNat ≤ f.pulseMax.toNat)

/-- The scalars a CHAN_SETUP stores. -/
def setupScalars (f : SetupFields) : Scalars :=
  { pulseMin := f.pulseMin.toNat, pulseMax := f.pulseMax.toNat, recovery := f.recovery.toNat,
    heatLimit := f.heatLimit.toNat, coolingRate := f.coolingRate.toNat, adaptShift := f.adaptShift.toNat,
    missLimit := f.missLimit.toNat }

/-- A channel with a new configuration, before it is settled (R28). -/
def Channel.configured (kind : Kind) (scalars : Scalars) (ch : Channel) : Channel :=
  { ch with kind := some kind, scalars := scalars, heat := 0, misses := 0, outliers := 0 }

/-- A HOLD channel on a present board needs an output the board can hold (R28 check 3). -/
def State.canCarry (s : State) (c : ChanId) (kind : Kind) : Bool :=
  match kind, s.boardEntry c with
  | .hold, some mask => mask.getLsbD (outputOf c).val
  | _, _ => true

/-- CHAN_SETUP in its owning block (R28). During a scan of its chain it settles the channel at once, from the
present-board set of the scan before: the model's reading beside R25 (log 21). -/
def chanSetupBody (chan : Byte) (f : SetupFields) : Body := fun s =>
  match kindOfCode f.kind with
  | none => refuse .range s
  | some kind =>
    if h : chan.toNat < 128 then
      let c : ChanId := ⟨chan.toNat, h⟩
      if !setupInRanges f then refuse .range s
      else if s.channelBusy c then refuse .busy s
      else if !s.canCarry c kind then refuse .range s
      else accept ((s.modChan c (Channel.configured kind (setupScalars f))).settleUnlessFaulted c)
    else refuse .range s

/-- CHAN_SETUP taken at a port. -/
def execChanSetup (p : Port) (chan : Byte) (fields : SetupFields) (s : State) : Result :=
  .next (takeRequest p (chanSetupBody chan fields) s)

/-! ### CHAN_CURVE (R30) -/

/-- A carried knot taken into its range (R30). -/
def knotOfFields (k : KnotFields) : Knot :=
  { pulse := clampNat 5 2000 k.pulse.toNat, flight := min k.flight.toNat 6000 }

/-- Whether taking a carried knot into its range changes it. -/
def knotClamps (k : KnotFields) : Bool :=
  (knotOfFields k).pulse != k.pulse.toNat || (knotOfFields k).flight != k.flight.toNat

/-- CHAN_CURVE in its owning block (R30). -/
def chanCurveBody (chan : Byte) (knots : Vector KnotFields 8) : Body := fun s =>
  if h : chan.toNat < 128 then
    let c : ChanId := ⟨chan.toNat, h⟩
    if s.channelBusy c then refuse .busy s
    else (s.modChan c fun ch => { ch with knots := knots.map knotOfFields },
          Reply.bare (okOrClamped (knots.any knotClamps)))
  else refuse .range s

/-- CHAN_CURVE taken at a port. -/
def execChanCurve (p : Port) (chan : Byte) (knots : Vector KnotFields 8) (s : State) : Result :=
  .next (takeRequest p (chanCurveBody chan knots) s)

/-! ### CHAN_RELEASE (R33) -/

/-- CHAN_RELEASE in its owning block (R33). -/
def chanReleaseBody (chan : Byte) : Body := fun s =>
  if h : chan.toNat < 128 then
    let c : ChanId := ⟨chan.toNat, h⟩
    if (s.chan c).presence = .faulted then
      accept (s.modChan c fun ch => ({ ch with misses := 0 }).settle (s.boardEntry c) (outputOf c))
    else refuse .state s
  else refuse .range s

/-- CHAN_RELEASE taken at a port. -/
def execChanRelease (p : Port) (chan : Byte) (s : State) : Result :=
  .next (takeRequest p (chanReleaseBody chan) s)

/-! ### CHAN_READ (R39, R198) -/

/-- The byte of a presence state (R198). -/
def Presence.byte : Presence → Byte
  | .absent => 0 | .unconfigured => 1 | .ready => 2 | .faulted => 3

/-- The byte of a fault cause (R198). -/
def FaultCause.byte : FaultCause → Byte
  | .coilOpen => 0 | .coilShort => 1 | .jam => 2 | .misses => 3

/-- The code of a channel kind (R197). -/
def Kind.byte : Kind → Byte
  | .strike => 1 | .hold => 2

/-- One byte that holds a number. -/
def byte1 (n : Nat) : List Byte := [BitVec.ofNat 8 n]

/-- A port number in a reply. -/
def portByte (p : Port) : List Byte := byte1 p.val

/-- A knot in a reply. -/
def Knot.bytes (k : Knot) : List Byte := bytesOf 2 k.pulse ++ bytesOf 2 k.flight

/-- The seven scalars in a reply, in the widths of the CHAN_SETUP payload. -/
def Scalars.bytes (x : Scalars) : List Byte :=
  bytesOf 2 x.pulseMin ++ bytesOf 2 x.pulseMax ++ bytesOf 2 x.recovery ++ bytesOf 2 x.heatLimit ++
    byte1 x.coolingRate ++ byte1 x.adaptShift ++ byte1 x.missLimit

/-- A flight slot in a reply, in the order of R39. Its owner ports are one port byte for each owner reference, a port
with several of them listed as often: the model's choice (log 11). The lateness takes the 2 bytes it has in a completion
record, saturated as there (log 11). -/
def FlightSlot.bytes (f : FlightSlot) : List Byte :=
  byte1 f.tag.toNat ++ counted (fun (o : OwnerRef) => portByte o.port) f.owners ++ bytes32 f.launch ++
    bytesOf 2 f.fig.flight ++ bytesOf 2 f.fig.pulse ++ byte1 f.fig.vEff ++ byte1 f.fig.seg ++ byte1 f.fig.off ++
    bytes32 f.target ++ signed16 (saturate f.lateness) ++ flagByte f.merged ++ flagByte f.retimed ++
    flagByte f.immediate ++ flagByte f.degraded ++ bytes32 f.deadline

/-- The whole record of a channel as CHAN_READ returns it (R39, R198). An absent flight slot is the 27 bytes that a slot
with no owners has, all 0 (log 11). -/
def Channel.bytes (scanning : Bool) (ch : Channel) : List Byte :=
  [ch.presence.byte] ++ optional 1 (fun (x : FaultCause) => [x.byte]) ch.cause ++ flagByte scanning ++
    optional 1 (fun (k : Kind) => [k.byte]) ch.kind ++ ch.knots.toList.flatMap Knot.bytes ++ ch.scalars.bytes ++
    bytesOf 2 ch.heat ++ byte1 ch.misses ++ bytesOf 2 ch.outliers ++ optional 4 bytes32 ch.readyAfter ++
    optional 27 FlightSlot.bytes ch.slot ++ byte1 ch.tag.toNat ++
    byte1 (if ch.hold.isSome then 1 else 0) ++ optional 1 (fun (l : Lift) => byte1 l.level) ch.hold ++
    optional 1 portByte (ch.hold.bind Lift.port) ++ optional 2 (bytesOf 2) ch.lastFlight ++ bytes32 ch.strikes

/-- CHAN_READ in its owning block (R39). -/
def chanReadBody (chan : Byte) : Body := fun s =>
  if h : chan.toNat < 128 then
    let c : ChanId := ⟨chan.toNat, h⟩
    answer s ((s.chan c).bytes (s.scanning (chainOf c)))
  else refuse .range s

/-- CHAN_READ taken at a port. -/
def execChanRead (p : Port) (chan : Byte) (s : State) : Result := .next (takeRequest p (chanReadBody chan) s)

end Sys2Proof.Machine
end

