-- ==== Sys2Proof/Machine/Notices.lean ====
section
/-! DEFINITION. The requests on completions and notices, and the end of the BEAT window (chapter 10). -/

namespace Sys2Proof.Machine

/-- The notice unit of port `p` changed by `f`. -/
def State.modUnit (s : State) (p : Port) (f : NoticeUnit → NoticeUnit) : State := s.modPort p (PortRec.modUnit f)

/-! ### DONE_READ and FILTER_SET (R173, R174) -/

/-- The list with the `n` oldest records removed, DONE_HIGH judged (R173, R174). -/
def NoticeUnit.removeOldest (now : StageTime) (n : Nat) (u : NoticeUnit) : NoticeUnit :=
  NoticeUnit.judge now .doneHigh u.doneHigh (NoticeUnit.doneHigh { u with records := u.records.drop n })
    { u with records := u.records.drop n }

/-- The reply to DONE_READ: count returned, count left, lost count, the records (R173, R198). -/
def NoticeUnit.doneBytes (u : NoticeUnit) : List Byte :=
  byte1 (min u.records.length 12) ++ byte1 (u.records.length - min u.records.length 12) ++ bytesOf 2 u.lost ++
    (u.records.take 12).flatMap Completion.bytes

/-- DONE_READ in its owning block (R173). -/
def doneReadBody (p : Port) : Body := fun s =>
  answer (s.modUnit p (NoticeUnit.removeOldest s.now 12)) (s.port p).unit.doneBytes

/-- DONE_READ taken at a port. -/
def execDoneRead (p : Port) (s : State) : Result := .next (takeRequest p (doneReadBody p) s)

/-- The filter a code names (R197). -/
def filterOfCode (b : Byte) : Option Filter := if b = 0 then some .exceptions else if b = 1 then some .all else none

/-- The unit with a new filter and mark, DONE_HIGH judged (R174). -/
def NoticeUnit.setFilter (now : StageTime) (filter : Filter) (mark : Nat) (u : NoticeUnit) : NoticeUnit :=
  NoticeUnit.judge now .doneHigh u.doneHigh (NoticeUnit.doneHigh { u with filter := filter, mark := mark })
    { u with filter := filter, mark := mark }

/-- FILTER_SET in its owning block (R174). -/
def filterSetBody (p : Port) (filter mark : Byte) : Body := fun s =>
  match filterOfCode filter with
  | some f =>
    if inRange 1 64 mark.toNat then accept (s.modUnit p (NoticeUnit.setFilter s.now f mark.toNat))
    else refuse .range s
  | none => refuse .range s

/-- FILTER_SET taken at a port. -/
def execFilterSet (p : Port) (filter mark : Byte) (s : State) : Result :=
  .next (takeRequest p (filterSetBody p filter mark) s)

/-! ### NOTE_MASK, NOTE_EDGE, NOTE_CLEAR, NOTE_FORCE (R179, R180) -/

/-- A source selection, none when it names a source number above 13 (R179, R198). -/
def selectionOf (x : BitVec 16) : Option (BitVec 14) := if x.toNat < 16384 then some (x.setWidth 14) else none

/-- The unit with latches cleared outside `keep`; clearing BEAT makes its window absent (R178 to R180). -/
def NoticeUnit.keepLatches (keep : BitVec 14) (u : NoticeUnit) : NoticeUnit :=
  { u with latches := u.latches &&& keep,
           beatWindow := if keep.getLsbD Source.beat.num then u.beatWindow else none }

/-- NOTE_MASK in its owning block: the enables replaced, the latches of disabled sources cleared (R179). -/
def noteMaskBody (p : Port) (selection : BitVec 16) : Body := fun s =>
  match selectionOf selection with
  | some sel => accept (s.modUnit p fun u => ({ u with enables := sel }).keepLatches sel)
  | none => refuse .range s

/-- NOTE_MASK taken at a port. -/
def execNoteMask (p : Port) (selection : BitVec 16) (s : State) : Result :=
  .next (takeRequest p (noteMaskBody p selection) s)

/-- NOTE_EDGE in its owning block: the edge selections replaced; bits 4 to 7 are out of range (R179, R198). -/
def noteEdgeBody (p : Port) (edges : Byte) : Body := fun s =>
  if edges.toNat < 16 then accept (s.modUnit p fun u => { u with falling := edges.setWidth 4 })
  else refuse .range s

/-- NOTE_EDGE taken at a port. -/
def execNoteEdge (p : Port) (edges : Byte) (s : State) : Result := .next (takeRequest p (noteEdgeBody p edges) s)

/-- NOTE_CLEAR in its owning block (R180). -/
def noteClearBody (p : Port) (selection : BitVec 16) : Body := fun s =>
  match selectionOf selection with
  | some sel => accept (s.modUnit p (NoticeUnit.keepLatches (~~~sel)))
  | none => refuse .range s

/-- NOTE_CLEAR taken at a port. -/
def execNoteClear (p : Port) (selection : BitVec 16) (s : State) : Result :=
  .next (takeRequest p (noteClearBody p selection) s)

/-- The latches of the selected enabled sources set, as if raised (R180). -/
def NoticeUnit.force (now : StageTime) (sel : BitVec 14) (u : NoticeUnit) : NoticeUnit :=
  { u with latches := u.latches ||| (sel &&& u.enables),
           beatWindow := if (sel &&& u.enables).getLsbD Source.beat.num then some (plus now 5000) else u.beatWindow }

/-- NOTE_FORCE in its owning block (R180). -/
def noteForceBody (p : Port) (selection : BitVec 16) : Body := fun s =>
  match selectionOf selection with
  | some sel => accept (s.modUnit p (NoticeUnit.force s.now sel))
  | none => refuse .range s

/-- NOTE_FORCE taken at a port. -/
def execNoteForce (p : Port) (selection : BitVec 16) (s : State) : Result :=
  .next (takeRequest p (noteForceBody p selection) s)

/-! ### NOTE_READ and the BEAT window (R178, R181) -/

/-- The notice block of port `p` as NOTE_READ returns it (R181, R198). -/
def State.noteBytes (s : State) (p : Port) : List Byte :=
  let u := (s.port p).unit
  bytesOf 2 u.enables.toNat ++ bytesOf 2 u.latches.toNat ++ byte1 u.falling.toNat ++ flagByte u.doneHigh ++
    flagByte (occupancyHigh s s.timeline.length) ++ flagByte s.supplyLow ++ flagByte s.safeLow ++
    flagByte u.beatWindow.isSome ++ flagByte u.atn

/-- NOTE_READ in its owning block (R181). -/
def noteReadBody (p : Port) : Body := fun s => answer s (s.noteBytes p)

/-- NOTE_READ taken at a port. -/
def execNoteRead (p : Port) (s : State) : Result := .next (takeRequest p (noteReadBody p) s)

/-- BEAT_WINDOW_END as a command: the window becomes absent when its end is reached; the latch stays (R178). -/
def execBeatWindowEnd (p : Port) (s : State) : Result :=
  .next (unlessReset (fun s =>
    if endReached s.now (s.port p).unit.beatWindow then s.modUnit p fun u => { u with beatWindow := none } else s) s)

end Sys2Proof.Machine
end

