-- ==== Sys2Proof/Machine/Cells.lean ====
section
/-! DEFINITION. The requests on phrase memory: CELLS_WRITE and CELLS_READ (chapter 03). -/

namespace Sys2Proof.Machine

/-- CELLS_WRITE in its owning block (R42): `data` is the payload after the start address, eight bytes a cell. -/
def cellsWriteBody (p : Port) (start : BitVec 16) (data : List Byte) : Body := fun s =>
  let n := data.length / 8
  if data.length % 8 ≠ 0 || !inRange 1 30 n || decide (2047 < start.toNat) then refuse .range s
  else if 2047 < start.toNat + n - 1 then refuse .range s
  else accept (s.modPort p fun r => { r with mem := writeBytes r.mem (8 * start.toNat) data })

/-- CELLS_WRITE taken at a port. -/
def execCellsWrite (p : Port) (start : BitVec 16) (data : List Byte) (s : State) : Result :=
  .next (takeRequest p (cellsWriteBody p start data) s)

/-- CELLS_READ in its owning block (R43). -/
def cellsReadBody (p : Port) (start : BitVec 16) (count : Byte) : Body := fun s =>
  if !inRange 1 31 count.toNat || decide (2047 < start.toNat + count.toNat - 1) then refuse .range s
  else answer s (readBytes (s.port p).mem (8 * start.toNat) (8 * count.toNat))

/-- CELLS_READ taken at a port. -/
def execCellsRead (p : Port) (start : BitVec 16) (count : Byte) (s : State) : Result :=
  .next (takeRequest p (cellsReadBody p start count) s)

end Sys2Proof.Machine
end

