-- ==== Sys2Proof/Machine/Clock.lean ====
section
/-! DEFINITION. The beat clock: rate, ramps, the beat step, tempo cues, run, stop and place, and its requests and
events (chapter 01). -/

namespace Sys2Proof.Machine

/-! ### Position and rate (R2, R3) -/

/-- The lowest rate word (R2). -/
def wMin : Nat := 137438954

/-- The highest rate word (R2). -/
def wMax : Nat := 4123168604

/-- The whole-tick part of the position (R2). -/
def Clock.tick (c : Clock) : Tick := c.pos.extractLsb' 32 32

/-- The fraction of the position (R2). -/
def Clock.fraction (c : Clock) : BitVec 32 := c.pos.extractLsb' 0 32

/-- The rate word of a tempo in hundredths of a BPM (R3). -/
def rateOfTempo (h : Nat) : BitVec 32 :=
  BitVec.ofNat 32 (max wMin ((clampNat 1000 30000 h * 137438953472 + 500000) / 1000000))

/-- The tempo in hundredths that a rate word reads back as (R3). -/
def tempoOfRate (w : BitVec 32) : Nat := (2 * w.toNat * 1000000 + 137438953472) / (2 * 137438953472)

/-- Whether the first-stage clamp of R3 changes a tempo. -/
def tempoClamps (h : Nat) : Bool := clampNat 1000 30000 h != h

/-! ### Ramps (R5 to R7, R16) -/

/-- A quotient rounded half away from zero (R16). -/
def roundAway (num : Int) (den : Nat) : Int :=
  if num < 0 then -((2 * -num + den) / (2 * den)) else (2 * num + den) / (2 * den)

/-- The clock set to a tempo, its ramp ended (R15). -/
def Clock.setTempo (h : Nat) (c : Clock) : Clock := { c with rate := rateOfTempo h, ramp := .none }

/-- The clock with a glide started, or its tempo set when the duration is 0 (R16). -/
def Clock.startGlide (h duration : Nat) (c : Clock) : Clock :=
  if duration = 0 then c.setTempo h
  else
    let target := rateOfTempo h
    let n := 2 * min duration 60000
    { c with ramp := .glide target (roundAway ((target.toNat : Int) - c.rate.toNat) n) n }

/-- The clock with its ramp ended at a rate limit (R6, R7). -/
def Clock.endAtLimit (limit : Nat) (c : Clock) : Clock :=
  { c with rate := BitVec.ofNat 32 limit, ramp := .none, clamped := true }

/-- The ramp stage of a running step (R6, R7). -/
def Clock.rampStage (c : Clock) : Clock :=
  match c.ramp with
  | .none => c
  | .glide target slope left =>
    let w : Int := (c.rate.toNat : Int) + slope
    if w < wMin then c.endAtLimit wMin
    else if (wMax : Int) < w then c.endAtLimit wMax
    else if left ≤ 1 then { c with rate := target, ramp := .none }
    else { c with rate := BitVec.ofNat 32 w.toNat, ramp := .glide target slope (left - 1) }
  | .curve slope curvature left =>
    let w : Int := (c.rate.toNat : Int) + slope
    if w < wMin then c.endAtLimit wMin
    else if (wMax : Int) < w then c.endAtLimit wMax
    else if left ≤ 1 then { c with rate := BitVec.ofNat 32 w.toNat, ramp := .none }
    else { c with rate := BitVec.ofNat 32 w.toNat,
                  ramp := .curve (max (-2147483648) (min 2147483647 (slope + curvature))) curvature (left - 1) }

/-! ### Beats and bars (R8, R10, R11) -/

/-- The advance of a running step (R2). -/
def Clock.advance (c : Clock) : Clock := { c with pos := c.pos + c.rate.setWidth 64 }

/-- Whether a step from tick `t0` to tick `t1` makes a beat crossing (R8). -/
def crosses (t0 t1 : Tick) : Bool := t1 != t0 && t1.toNat % 384 == 0

/-- Whether the next crossing is a bar line (R8). -/
def Clock.atBarLine (c : Clock) : Bool := c.beat + 1 == c.meter

/-- The counters and the meter after a crossing (R8). -/
def Clock.countBeat (c : Clock) : Clock :=
  if c.atBarLine then
    { c with beat := 0, bar := c.bar + 1, meter := c.pendingMeter.getD c.meter, pendingMeter := none }
  else { c with beat := c.beat + 1 }

/-- Whether a cue match fits the bar and beat just begun (R10). -/
def CueMatch.fits (m : CueMatch) (bar : BitVec 16) (beat : Nat) : Bool :=
  m.enabled && (match m.bar with | some b => b == bar | none => true) &&
    (match m.beat with | some b => b == beat | none => true)

/-- What a port is told of a crossing: CUE for a fitting cue match, BEAT by its mode (R10). -/
def PortRec.tellBeat (now : StageTime) (bar : BitVec 16) (beat : Nat) (barLine : Bool) (r : PortRec) : PortRec :=
  let r1 := if r.cue.fits bar beat then r.modUnit (NoticeUnit.raise now .cue) else r
  if r1.beatMode = .beat || (r1.beatMode = .bar && barLine) then r1.modUnit (NoticeUnit.raise now .beat) else r1

/-- The beat-crossing stage: counters, BEATOUT, then the ports (R8, R10, R11). -/
def State.crossBeat (s : State) : State :=
  let barLine := s.clock.atBarLine
  let s1 := s.modClock fun c =>
    { c.countBeat with beatout := some (plus s.now (if barLine then 10000 else 2000)) }
  s1.modPorts (PortRec.tellBeat s1.now s1.clock.bar s1.clock.beat barLine)

/-! ### Tempo cues (R12 to R14) -/

/-- A cue filed in the list, or none when the list holds 4 (R12). -/
def Clock.fileCue (cue : TempoCue) (c : Clock) : Option Clock :=
  if c.cues.length < 4 then
    some { c with cues := placeAfter (fun x => atOrBefore x.tick cue.tick) cue c.cues }
  else none

/-- A due cue applied: it acts as TEMPO_SET or TEMPO_GLIDE and gives TEMPO_APPLIED (R13). -/
def State.applyCue (s : State) (cue : TempoCue) : State :=
  (s.modClock (Clock.startGlide cue.tempo cue.duration)).deliver cue.owner (OutcomeData.plain .tempoApplied none)

/-- Whether a cue is due (R13). -/
def Clock.isDue (c : Clock) (cue : TempoCue) : Bool := atOrBefore cue.tick c.tick

/-- The due-cue stage: every due cue leaves the list and is applied, in list order (R13). -/
def State.applyDueCues (s : State) : State :=
  (s.clock.cues.filter s.clock.isDue).foldl State.applyCue
    (s.modClock fun c => { c with cues := c.cues.filter fun x => !c.isDue x })

/-! ### The beat step (R1, R4) -/

/-- The stages of a running step after T_B is set (R4). -/
def State.runningStep (s : State) : State :=
  let t0 := s.clock.tick
  let s1 := s.modClock fun c => c.advance.rampStage
  (if crosses t0 s1.clock.tick then s1.crossBeat else s1).applyDueCues

/-- The step timer after a step: it moves on by 500 µs when it was due (R1, log 5). -/
def Clock.rearm (now : StageTime) (c : Clock) : Clock :=
  { c with tB := now, nextBeat := if atOrBefore c.nextBeat now then plus c.nextBeat 500 else c.nextBeat }

/-- BEAT_STEP (R1, R4). -/
def beatStepEvent (s : State) : State :=
  let s1 := s.modClock (Clock.rearm s.now)
  if s1.clock.running then s1.runningStep else s1

/-- BEAT_STEP as a command. -/
def execBeatStep (s : State) : Result := .next (unlessReset beatStepEvent s)

/-- Whether a running clock's held ramp is a glide at its last step. -/
def Clock.glideEnds (c : Clock) : Bool :=
  match c.ramp with
  | .glide _ _ left => c.running && decide (left ≤ 1)
  | _ => false

/-- Whether a running clock's held ramp is a curve at its last step. -/
def Clock.curveEnds (c : Clock) : Bool :=
  match c.ramp with
  | .curve _ _ left => c.running && decide (left ≤ 1)
  | _ => false

/-- GLIDE_SNAP as a command: the last ramp stage of a held glide (R6, log 8). -/
def execGlideSnap (s : State) : Result :=
  .next (unlessReset (fun s => if s.clock.glideEnds then s.modClock Clock.rampStage else s) s)

/-- CURVE_END as a command: the last ramp stage of a held curve (R7, log 8). -/
def execCurveEnd (s : State) : Result :=
  .next (unlessReset (fun s => if s.clock.curveEnds then s.modClock Clock.rampStage else s) s)

/-- BEATOUT_PULSE_END as a command: BEATOUT returns low at the end of its pulse (R11). -/
def execBeatoutPulseEnd (s : State) : Result :=
  .next (unlessReset (fun s => if endReached s.now s.clock.beatout then s.modClock fun c => { c with beatout := none } else s) s)

/-! ### Tempo and meter requests -/

/-- TEMPO_SET in its owning block (R15). -/
def tempoSetBody (tempo : BitVec 16) : Body := fun s =>
  (s.modClock (Clock.setTempo tempo.toNat), Reply.bare (okOrClamped (tempoClamps tempo.toNat)))

/-- TEMPO_SET taken at a port. -/
def execTempoSet (p : Port) (tempo : BitVec 16) (s : State) : Result := .next (takeRequest p (tempoSetBody tempo) s)

/-- TEMPO_GLIDE in its owning block (R16). -/
def tempoGlideBody (tempo duration : BitVec 16) : Body := fun s =>
  (s.modClock (Clock.startGlide tempo.toNat duration.toNat),
   Reply.bare (okOrClamped (tempoClamps tempo.toNat || decide (60000 < duration.toNat))))

/-- TEMPO_GLIDE taken at a port. -/
def execTempoGlide (p : Port) (tempo duration : BitVec 16) (s : State) : Result :=
  .next (takeRequest p (tempoGlideBody tempo duration) s)

/-- TEMPO_CURVE in its owning block (R17). -/
def tempoCurveBody (slope curvature count : BitVec 32) : Body := fun s =>
  if inRange 1 240000 count.toNat then
    accept (s.modClock fun c => { c with ramp := .curve slope.toInt curvature.toInt count.toNat })
  else refuse .range s

/-- TEMPO_CURVE taken at a port. -/
def execTempoCurve (p : Port) (slope curvature count : BitVec 32) (s : State) : Result :=
  .next (takeRequest p (tempoCurveBody slope curvature count) s)

/-- METER_SET in its owning block (R9). -/
def meterSetBody (meter : Byte) : Body := fun s =>
  if inRange 1 16 meter.toNat then accept (s.modClock fun c => { c with pendingMeter := some meter.toNat })
  else refuse .range s

/-- METER_SET taken at a port. -/
def execMeterSet (p : Port) (meter : Byte) (s : State) : Result := .next (takeRequest p (meterSetBody meter) s)

/-- CUE_SET in its owning block (R10, R197, R198): flag bit 0 enabled, bit 1 bar ANY, bit 2 beat ANY. -/
def cueSetBody (p : Port) (bar : BitVec 16) (beat flags : Byte) : Body := fun s =>
  if flags.toNat < 8 && (flags.getLsbD 2 || decide (beat.toNat ≤ 15)) then
    accept (s.modPort p fun r =>
      { r with cue := { bar := if flags.getLsbD 1 then none else some bar,
                        beat := if flags.getLsbD 2 then none else some beat.toNat,
                        enabled := flags.getLsbD 0 } })
  else refuse .range s

/-- CUE_SET taken at a port. -/
def execCueSet (p : Port) (bar : BitVec 16) (beat flags : Byte) (s : State) : Result :=
  .next (takeRequest p (cueSetBody p bar beat flags) s)

/-- The beat-notice mode a code names (R197). -/
def beatModeOfCode (b : Byte) : Option BeatMode :=
  if b = 0 then some .off else if b = 1 then some .beat else if b = 2 then some .bar else none

/-- BEAT_MODE in its owning block (R10). -/
def beatModeBody (p : Port) (mode : Byte) : Body := fun s =>
  match beatModeOfCode mode with
  | some m => accept (s.modPort p fun r => { r with beatMode := m })
  | none => refuse .range s

/-- BEAT_MODE taken at a port. -/
def execBeatMode (p : Port) (mode : Byte) (s : State) : Result := .next (takeRequest p (beatModeBody p mode) s)

/-! ### Run, stop and place (R18 to R20) -/

/-- A request that makes an action the pending sync action of port `p` (R19). -/
def Clock.await (p : Port) (a : SyncAction) (c : Clock) : Clock := { c with sync := some { action := a, port := p } }

/-- CLK_RUN and CLK_STOP in their owning block (R18): mode NOW is 0 and AT_SYNC is 1. -/
def runStopBody (p : Port) (run : Bool) (mode : Byte) : Body := fun s =>
  if mode = 0 then accept (s.modClock fun c => { c with running := run })
  else if mode = 1 then accept (s.modClock (Clock.await p (if run then .run else .stop)))
  else refuse .range s

/-- CLK_RUN taken at a port. -/
def execClkRun (p : Port) (mode : Byte) (s : State) : Result := .next (takeRequest p (runStopBody p true mode) s)

/-- CLK_STOP taken at a port. -/
def execClkStop (p : Port) (mode : Byte) (s : State) : Result := .next (takeRequest p (runStopBody p false mode) s)

/-- Whether the port holds a current or a queued beat phrase (R20, R57). -/
def Reader.holdsBeatPhrase (rd : Reader) : Bool :=
  (match rd.current with | some o => o.clock == .beat | none => false) ||
    rd.queue.any fun q => q.head.clock == .beat

/-- Whether any port holds a current or a queued beat phrase. -/
def State.clockShared (s : State) : Bool := s.ports.any fun r => r.reader.holdsBeatPhrase

/-- A place taking effect: position and counters set, every cue removed with CUE_DROPPED (R14, R20). -/
def State.place (s : State) (tick : Tick) (bar : BitVec 16) (beat : Nat) : State :=
  s.clock.cues.foldl (fun st cue => st.deliver cue.owner (OutcomeData.plain .cueDropped none))
    (s.modClock fun c => { c with pos := tick ++ (0 : BitVec 32), bar := bar, beat := beat, cues := [] })

/-- CLK_PLACE in its owning block (R20). -/
def clkPlaceBody (p : Port) (mode : Byte) (tick : Tick) (bar : BitVec 16) (beat : Byte) : Body := fun s =>
  if 1 < mode.toNat || s.clock.meter ≤ beat.toNat then refuse .range s
  else if s.clockShared then refuse .clockShared s
  else if mode = 0 then accept (s.place tick bar beat.toNat)
  else accept (s.modClock (Clock.await p (.place tick bar beat.toNat)))

/-- CLK_PLACE taken at a port. -/
def execClkPlace (p : Port) (mode : Byte) (tick : Tick) (bar : BitVec 16) (beat : Byte) (s : State) : Result :=
  .next (takeRequest p (clkPlaceBody p mode tick bar beat) s)

/-- A falling edge of SYNC: the pending action is applied and becomes absent; a PLACE is checked again (R19). -/
def syncEdgeEvent (s : State) : State :=
  match s.clock.sync with
  | none => s
  | some w =>
    let s1 := s.modClock fun c => { c with sync := none }
    match w.action with
    | .run => s1.modClock fun c => { c with running := true }
    | .stop => s1.modClock fun c => { c with running := false }
    | .place tick bar beat =>
      if beat < s1.clock.meter && !s1.clockShared then s1.place tick bar beat
      else s1.modClock fun c => { c with placeRefused := true }

/-- SYNC_EDGE as a command. -/
def execSyncEdge (s : State) : Result := .next (unlessReset syncEdgeEvent s)

/-! ### CLK_READ (R22, R198) -/

/-- The ramp kind and its steps left in a reply. The steps left take the 4 bytes of TEMPO_CURVE's step count (log 11). -/
def Ramp.bytes : Ramp → List Byte
  | .none => 0 :: bytesOf 4 0
  | .glide _ _ left => 1 :: bytesOf 4 left
  | .curve _ _ left => 2 :: bytesOf 4 left

/-- The pending sync action in a reply: action, port, then tick, bar and beat, each optional (log 11). -/
def PendingSync.bytes (w : PendingSync) : List Byte :=
  match w.action with
  | .run => [0] ++ portByte w.port ++ 0 :: bytesOf 4 0 ++ 0 :: bytesOf 2 0 ++ 0 :: byte1 0
  | .stop => [1] ++ portByte w.port ++ 0 :: bytesOf 4 0 ++ 0 :: bytesOf 2 0 ++ 0 :: byte1 0
  | .place tick bar beat =>
    [2] ++ portByte w.port ++ 1 :: bytes32 tick ++ 1 :: bytes16 bar ++ 1 :: byte1 beat

/-- The clock as CLK_READ returns it (R22). -/
def Clock.bytes (c : Clock) : List Byte :=
  flagByte c.running ++ bytes32 c.tick ++ bytes32 c.fraction ++ bytes32 c.rate ++ bytesOf 2 (tempoOfRate c.rate) ++
    c.ramp.bytes ++ byte1 c.meter ++ optional 1 byte1 c.pendingMeter ++ bytes16 c.bar ++ byte1 c.beat ++
    flagByte c.clamped ++ flagByte c.placeRefused ++ byte1 c.cues.length ++ optional 12 PendingSync.bytes c.sync

/-- CLK_READ in its owning block: the values, then both flags clear (R22). -/
def clkReadBody : Body := fun s =>
  answer (s.modClock fun c => { c with clamped := false, placeRefused := false }) s.clock.bytes

/-- CLK_READ taken at a port. -/
def execClkRead (p : Port) (s : State) : Result := .next (takeRequest p clkReadBody s)

end Sys2Proof.Machine
end

