-- ==== Sys2Proof/Machine/Reader.lean ====
section
/-! DEFINITION. The cue reader: arming, posting, taking and reading phrases, stopping and resuming, and the immediate
requests (chapter 04). -/

namespace Sys2Proof.Machine

/-! ### Arming (R68, R69, R77, R86, R87) -/

/-- What arming comes to before the timeline is asked: an outcome given at once, or an entry to offer. -/
inductive Arm where
  | given (o : OutcomeData)
  | offer (e : Entry)
  deriving DecidableEq, Repr

/-- The late check and the entry it lets through (R86, R87, R96). -/
def State.armEntry (s : State) (ref : OwnerRef) (action : Action) (target fire ideal : StageTime) : Arm :=
  match sendTime s.settings.tolerance s.now ideal with
  | none => .given { OutcomeData.plain .late action.chan with vEff := action.vEff, immediate := ref.phrase.isNone }
  | some send =>
    .offer { action := action, target := target, fire := fire, ideal := ideal, send := send, owners := [ref],
             merged := false, retimed := false, immediate := ref.phrase.isNone }

/-- Arming a stroke: effective velocity, channel check, figures and times, late check (R68 steps 2 to 4, R77). The
target may depend on the figures, as it does for an immediate request (R86). -/
def State.armStrike (s : State) (ref : OwnerRef) (level velocity : Nat) (accent : Bool) (c : ChanId)
    (target : Figures → StageTime) : Arm :=
  match effectiveVelocity velocity level accent s.settings.accentBoost with
  | none => .given { OutcomeData.plain .muted (some c) with immediate := ref.phrase.isNone }
  | some v =>
    match s.channelCheck c .strike with
    | some code => .given { OutcomeData.plain code (some c) with vEff := v, immediate := ref.phrase.isNone }
    | none =>
      let fig := figuresOf (s.chan c) v
      let fire := minus (target fig) (fig.flight * 10)
      s.armEntry ref (.strike c fig) (target fig) fire (minus fire s.settings.frameTime)

/-- Arming a damper movement, its flight 0 (R69, R86). -/
def State.armHold (s : State) (ref : OwnerRef) (c : ChanId) (action : Action) (target : StageTime) : Arm :=
  match s.channelCheck c .hold with
  | some code => .given { OutcomeData.plain code (some c) with immediate := ref.phrase.isNone }
  | none => s.armEntry ref action target target (minus target s.settings.frameTime)

/-- The entry kind of a damper movement: a LIFT at level 0 lifts at level 1 (R49, R81). -/
def holdAction (c : ChanId) (drop : Bool) (level : Nat) : Action :=
  if drop then .drop c else .lift c (if level = 0 then 1 else level)

/-- A reference made: its phrase has one more outcome to come (R67). -/
def State.referenced (s : State) (ref : OwnerRef) : State :=
  match ref.phrase with
  | some ph => s.modReader ref.port (Reader.modRecord ph.serial fun o => { o with outstanding := o.outstanding + 1 })
  | none => s

/-- The result of an arming (R77). -/
inductive Armed where
  | queued
  | merged
  | given (code : OutcomeCode)
  | full
  deriving DecidableEq, Repr

/-- Arming carried out: an outcome given at once, or the offer and what the timeline makes of it (R67, R68, R70). -/
def State.arm (s : State) (ref : OwnerRef) : Arm → Armed × State
  | .given o => (.given o.code, (s.referenced ref).deliver ref o)
  | .offer e =>
    match offerEntry e ref s with
    | (.inserted, s') => (.queued, s'.referenced ref)
    | (.merged, s') => (.merged, s'.referenced ref)
    | (.absorbed, s') => (.given .absorbed, (s'.referenced ref).deliver ref (e.outcome .absorbed none))
    | (.full, s') => (.full, s')

/-! ### Immediate requests (R77) -/

/-- The reply to an immediate request (R77, R198). -/
def armedReply : Armed → Reply
  | .queued => { code := .ok, payload := [0x20] }
  | .merged => { code := .ok, payload := [0x21] }
  | .given code => { code := .ok, payload := [BitVec.ofNat 8 code.num] }
  | .full => Reply.bare .full

/-- STRIKE in its owning block (R77); flag bit 0 is ACCENT (R197). -/
def strikeBody (p : Port) (chan velocity flags : Byte) : Body := fun s =>
  if h : chan.toNat < 128 then
    if !inRange 1 127 velocity.toNat || decide (1 < flags.toNat) then refuse .range s
    else if s.safeLow then refuse .safe s
    else
      let r := s.arm (OwnerRef.bare p)
        (s.armStrike (OwnerRef.bare p) (s.port p).reader.level velocity.toNat (flags.getLsbD 0) ⟨chan.toNat, h⟩
          fun fig => plus s.now (s.settings.frameTime + fig.flight * 10))
      (r.2, armedReply r.1)
  else refuse .range s

/-- STRIKE taken at a port. -/
def execStrike (p : Port) (chan velocity flags : Byte) (s : State) : Result :=
  .next (takeRequest p (strikeBody p chan velocity flags) s)

/-- HOLD_SET in its owning block (R77); the action LIFT is 0 and DROP is 1 (R197). -/
def holdSetBody (p : Port) (chan action level : Byte) : Body := fun s =>
  if h : chan.toNat < 128 then
    if 1 < action.toNat || (action = 0 && level = 0) then refuse .range s
    else if s.safeLow then refuse .safe s
    else
      let c : ChanId := ⟨chan.toNat, h⟩
      let r := s.arm (OwnerRef.bare p)
        (s.armHold (OwnerRef.bare p) c (holdAction c (action = 1) level.toNat) (plus s.now s.settings.frameTime))
      (r.2, armedReply r.1)
  else refuse .range s

/-- HOLD_SET taken at a port. -/
def execHoldSet (p : Port) (chan action level : Byte) (s : State) : Result :=
  .next (takeRequest p (holdSetBody p chan action level) s)

/-! ### Posting (R56, R58, R59) -/

/-- The origin a post carries, when its mode is one of the five and its value in range (R58 check 1, R59). -/
def originOf (now : StageTime) (mode : Byte) (value : BitVec 32) : Option Origin :=
  match mode.toNat with
  | 0 => some (.atTick value)
  | 1 => some .nextBar
  | 2 => if since now value ≤ 600000000 then some (.atTime value) else none
  | 3 => if value.toNat ≤ 600000 then some (.nowPlus value.toNat) else none
  | 4 => some .after
  | _ => none

/-- The clock and length a post with origin AFTER must fit: the last queued phrase, else the current phrase, else the
chain end (R59). -/
def Reader.fitsAfter (rd : Reader) (clock : PhraseClock) : Bool :=
  match rd.queue.getLast? with
  | some q => q.head.clock == clock && q.head.length != 0
  | none =>
    match rd.current with
    | some o => o.clock == clock && o.length != 0
    | none =>
      match rd.chainEnd with
      | some e => e.clock == clock
      | none => false

/-- Whether an origin fits the clock of the head (R58 check 5, R59). -/
def Reader.originFits (rd : Reader) (origin : Origin) (clock : PhraseClock) : Bool :=
  match origin with
  | .atTick _ => clock == .beat
  | .nextBar => clock == .beat
  | .atTime _ => clock == .free
  | .nowPlus _ => clock == .free
  | .after => rd.fitsAfter clock

/-- Whether a phrase in the queue or in the open list holds a serial (R56). -/
def Reader.holdsSerial (rd : Reader) (n : BitVec 8) : Bool :=
  (rd.queue.any fun q => q.serial == n) || rd.opened.any fun o => o.serial == n

/-- The first serial from `n` on that no phrase holds, looked for among `fuel` values (R56). At most 12 are held. -/
def Reader.freshSerial (rd : Reader) : Nat → BitVec 8 → BitVec 8
  | 0, n => n
  | fuel + 1, n => if rd.holdsSerial n then rd.freshSerial fuel (n + 1) else n

/-- A reader with a phrase appended to its queue under a fresh serial (R56). -/
def Reader.post (start : Nat) (origin : Origin) (head : Head) (rd : Reader) : Reader :=
  let serial := rd.freshSerial 256 rd.nextSerial
  { rd with queue := rd.queue ++ [{ serial := serial, start := start, origin := origin, head := head,
                                    originPassed := false }],
            nextSerial := serial + 1 }

/-- PHRASE_POST in its owning block (R58). -/
def phrasePostBody (p : Port) (start : BitVec 16) (mode : Byte) (value : BitVec 32) : Body := fun s =>
  match originOf s.now mode value with
  | none => refuse .range s
  | some origin =>
    if 2047 < start.toNat then refuse .range s
    else if s.safeLow then refuse .safe s
    else match decodeCell (readCell (s.port p).mem start.toNat) with
      | .head head =>
        let rd := (s.port p).reader
        if 4 ≤ rd.queue.length then refuse .queueFull s
        else if !rd.originFits origin head.clock then refuse .state s
        else answer (s.modReader p (Reader.post start.toNat origin head)) [rd.freshSerial 256 rd.nextSerial]
      | _ => refuse .badPhrase s

/-- PHRASE_POST taken at a port. -/
def execPhrasePost (p : Port) (start : BitVec 16) (mode : Byte) (value : BitVec 32) (s : State) : Result :=
  .next (takeRequest p (phrasePostBody p start mode value) s)

/-! ### Taking a phrase (R59 to R61) -/

/-- The next tick position after `t` whose value is a multiple of 384, tick 0 following the last one below 2^32 (R59). -/
def nextBeatTick (t : Tick) : Tick :=
  if t.toNat - t.toNat % 384 + 384 < 4294967296 then BitVec.ofNat 32 (t.toNat - t.toNat % 384 + 384) else 0

/-- The n-th such tick position after `t`. -/
def beatTickAfter (t : Tick) : Nat → Tick
  | 0 => t
  | n + 1 => beatTickAfter (nextBeatTick t) n

/-- The origin of a phrase, fixed at its take (R59). -/
def State.fixOrigin (s : State) (chainEnd : Option ChainEnd) (q : QueueSlot) : BitVec 32 :=
  match q.origin with
  | .atTick t => t
  | .nextBar => beatTickAfter s.clock.tick (s.clock.meter - s.clock.beat)
  | .atTime t => if q.originPassed then s.now else t
  | .nowPlus d => plus s.now d
  | .after =>
    match chainEnd with
    | some e => e.pos
    | none => if q.head.clock = .beat then s.clock.tick else s.now

/-- The record a take makes (R60). -/
def QueueSlot.open (origin : BitVec 32) (q : QueueSlot) : OpenRec :=
  { serial := q.serial, clock := q.head.clock, origin := origin, length := q.head.length,
    overhang := q.head.overhang, stopOnFault := q.head.stopOnFault, start := q.start,
    passesLeft := q.head.repeats, pass := 0, addr := q.start + 1, links := 0, reading := .reading,
    outstanding := 0, exceptions := 0 }

/-- A take, when R60 allows one: none otherwise. The port settles after it. -/
def State.takePhrase (s : State) (p : Port) : Option State :=
  let rd := (s.port p).reader
  if rd.isHeld || s.safeLow || rd.current.isSome || decide (8 ≤ rd.opened.length) then none
  else match rd.queue with
    | [] => none
    | q :: rest =>
      some (s.modPort p fun r =>
        let taken := r.modReader fun rd =>
          { rd with queue := rest, opened := rd.opened ++ [q.open (s.fixOrigin rd.chainEnd q)] }
        (if rest.isEmpty then taken.modUnit (NoticeUnit.raise s.now .queueEmpty) else taken).settle s.now)

/-- The aging of stored times at the start of a pass (R61). -/
def Reader.age (now : StageTime) (tick : Tick) (rd : Reader) : Reader :=
  { rd with
    queue := rd.queue.map fun q =>
      match q.origin with
      | .atTime t => if atOrBefore t now then { q with originPassed := true } else q
      | _ => q
    chainEnd :=
      match rd.chainEnd with
      | some e => if earlier e.pos (if e.clock = .free then now else tick) then none else some e
      | none => none }

/-! ### Reading cells (R62 to R70) -/

/-- The origin of pass `k` of a phrase (R47). -/
def OpenRec.passOrigin (o : OpenRec) (k : Nat) : BitVec 32 := plus o.origin (k * o.length)

/-- The signed distance from tick `t` to tick `q`, none where R63 leaves it beyond the horizon. -/
def tickDistance (t q : Tick) : Option Int :=
  if earlier t q then (if since t q ≤ 65536 then some (since t q) else none)
  else if earlier q t then some (max (-65536) (-(since q t : Int)))
  else if q = t then some 0
  else none

/-- The stage time of a tick, from B, W and T_B as they stand; none beyond the arming horizon (R63). -/
def Clock.targetOfTick (c : Clock) (q : Tick) : Option StageTime :=
  match tickDistance c.tick q with
  | none => none
  | some d =>
    let far : Int := d * 4294967296 - c.fraction.toNat
    some (c.tB + BitVec.ofInt 32 ((2 * far * 500 + c.rate.toNat) / (2 * c.rate.toNat)))

/-- The target of an offset in pass `k` of a phrase (R63); none for a beat phrase under a STOPPED clock, and for a
tick beyond the horizon. -/
def State.targetOf (s : State) (o : OpenRec) (k offset : Nat) : Option StageTime :=
  match o.clock with
  | .free => some (plus (o.passOrigin k) offset)
  | .beat => if s.clock.running then s.clock.targetOfTick (plus (o.passOrigin k) offset) else none

/-- The target, when the cell or the END it belongs to does not wait (R64). -/
def State.reachable (s : State) (o : OpenRec) (k offset : Nat) : Option StageTime :=
  match s.targetOf o k offset with
  | some t => if later t (plus s.now (s.settings.horizon * 1000)) then none else some t
  | none => none

/-- What reading one cell comes to: the pass stops, or it reads on. -/
inductive Read where
  | stop (s : State)
  | more (s : State)

/-- The state a reading leaves. -/
def Read.state : Read → State
  | .stop s => s
  | .more s => s

/-- A program error: the port goes HELD and the pass ends (R66). -/
def State.programError (s : State) (p : Port) (error : ProgramError) : State :=
  s.modPort p (PortRec.hold s.now (.program error))

/-- A LINK met in reading (R66). -/
def State.readLink (s : State) (p : Port) (o : OpenRec) (target : Nat) : Read :=
  if o.links < 16 then
    .more (s.modReader p (Reader.modRecord o.serial fun x => { x with links := x.links + 1, addr := target }))
  else .stop (s.programError p .linkLoop)

/-- The end of reading of a phrase with no passes left (R65). -/
def State.endReading (s : State) (p : Port) (o : OpenRec) : State :=
  s.modPort p fun r =>
    ((((r.modReader fun rd => { rd.modRecord o.serial fun x => { x with reading := .ended } with
        chainEnd := if o.length = 0 then none
          else some { clock := o.clock, pos := plus (o.passOrigin o.pass) o.length } }).modUnit
      (NoticeUnit.raise s.now .readEnd)).finishIfDone s.now o.serial).settle s.now)

/-- An END, or a HEAD, met in reading (R65). -/
def State.readPassEnd (s : State) (p : Port) (o : OpenRec) : Read :=
  if o.passesLeft = 0 then
    let ended := s.endReading p o
    match ended.takePhrase p with
    | some s' => .more s'
    | none => .stop ended
  else match s.reachable o (o.pass + 1) 0 with
    | none => .stop s
    | some _ =>
      .more (s.modReader p (Reader.modRecord o.serial fun x =>
        { x with passesLeft := x.passesLeft - 1, pass := x.pass + 1, addr := x.start + 1, links := 0 }))

/-- The reader address past a consumed timed cell (R66, R67). -/
def State.stepPast (s : State) (p : Port) (o : OpenRec) : State :=
  s.modReader p (Reader.modRecord o.serial fun x => { x with addr := x.addr + 1, links := 0 })

/-- After an outcome given within a pass, the pass ends if it holds the port (R75). -/
def State.unlessHeld (s : State) (p : Port) : Read := if (s.port p).reader.isHeld then .stop s else .more s

/-- The reference a consumed cell makes (R67). -/
def cellRef (p : Port) (o : OpenRec) (mark : Bool) : OwnerRef :=
  { port := p, phrase := some { serial := o.serial, addr := o.addr }, pass := o.pass, mark := mark }

/-- A cell armed from the state past it; refused for room, it stays unread in `s` (R70). -/
def State.consumeArmed (s past : State) (p : Port) (ref : OwnerRef) (a : Arm) : Read :=
  match past.arm ref a with
  | (.full, _) => .stop s
  | (_, s') => s'.unlessHeld p

/-- The tick of a SET_TEMPO cell's cue (R69): the cell's tick in a beat phrase; in a free phrase the tick the position
reaches, at the rate in force, at the first beat step at or after the target. -/
def State.cueTick (s : State) (o : OpenRec) (offset : Nat) (target : StageTime) : Tick :=
  match o.clock with
  | .beat => plus (o.passOrigin o.pass) offset
  | .free =>
    let n := (((target - s.clock.tB).toInt + 499) / 500).toNat
    (s.clock.pos + BitVec.ofNat 64 (n * s.clock.rate.toNat)).extractLsb' 32 32

/-- A SET_TEMPO cell: the cue is filed, or CUE_FULL is given (R12, R69). -/
def State.offerCue (past : State) (p : Port) (ref : OwnerRef) (cue : TempoCue) : Read :=
  match past.clock.fileCue cue with
  | some clock => .more ((past.modClock fun _ => clock).referenced ref)
  | none => ((past.referenced ref).deliver ref (OutcomeData.plain .cueFull none)).unlessHeld p

/-- The channel a cell names (R170, CLIPPED). -/
def Cell.chan : Cell → Option ChanId
  | .stroke c .. => some c
  | .hold c .. => some c
  | _ => none

/-- The MARK flag of a cell (R67). -/
def Cell.mark : Cell → Bool
  | .stroke _ _ mark _ _ => mark
  | .hold _ _ _ mark _ => mark
  | .rest mark _ => mark
  | _ => false

/-- A timed cell that is not clipped, consumed at its target (R68, R69). -/
def State.actOn (s : State) (p : Port) (o : OpenRec) (cell : Cell) (target : StageTime) : Read :=
  let past := s.stepPast p o
  let ref := cellRef p o cell.mark
  match cell with
  | .stroke c velocity _ accent _ =>
    if velocity = 0 then .more past
    else s.consumeArmed past p ref
      (past.armStrike ref (s.port p).reader.level velocity accent c fun _ => target)
  | .hold c drop level _ _ => s.consumeArmed past p ref (past.armHold ref c (holdAction c drop level) target)
  | .rest mark _ => if mark then s.consumeArmed past p ref (past.armEntry ref .mark target target target) else .more past
  | .setLevel level _ => .more (past.modReader p fun rd => { rd with level := level })
  | .setTempo tempo duration offset =>
    past.offerCue p ref { tick := s.cueTick o offset target, tempo := clampNat 1000 30000 tempo,
                          duration := duration * 50, owner := ref }
  | _ => .stop s

/-- A timed cell of offset `offset` met in reading: it waits, is clipped, or acts by its kind (R64, R67). -/
def State.readTimed (s : State) (p : Port) (o : OpenRec) (cell : Cell) (offset : Nat) : Read :=
  match s.reachable o o.pass offset with
  | none => .stop s
  | some target =>
    if o.length ≠ 0 && decide (o.length ≤ offset) && !o.overhang then
      (((s.stepPast p o).referenced (cellRef p o cell.mark)).deliver (cellRef p o cell.mark)
        (OutcomeData.plain .clipped cell.chan)).unlessHeld p
    else s.actOn p o cell target

/-- Reading the cell at the reader address of the current phrase (R62 to R70). -/
def State.readOne (s : State) (p : Port) : Read :=
  match (s.port p).reader.current with
  | none => .stop s
  | some o =>
    if 2048 ≤ o.addr then .stop (s.programError p .addressEnd)
    else
      let cell := decodeCell (readCell (s.port p).mem o.addr)
      match cell with
      | .endCell => s.readPassEnd p o
      | .head _ => s.readPassEnd p o
      | .link target => s.readLink p o target
      | .undefined => .stop (s.programError p .badKind)
      | .stroke _ _ _ _ offset => s.readTimed p o cell offset
      | .hold _ _ _ _ offset => s.readTimed p o cell offset
      | .setLevel _ offset => s.readTimed p o cell offset
      | .setTempo _ _ offset => s.readTimed p o cell offset
      | .rest _ offset => s.readTimed p o cell offset

/-- Reading cell after cell until something stops it (R62), for at most `fuel` cells. -/
def State.readOn : Nat → Port → State → Option State
  | 0, _, _ => none
  | fuel + 1, p, s =>
    match s.readOne p with
    | .stop s' => some s'
    | .more s' => State.readOn fuel p s'

/-- More cells than any pass that ends reads (log 6). -/
def passFuel : Nat := 4294967296

/-- The pass timer and the aging at the start of a pass (R61, R62, log 5). -/
def State.beginPass (s : State) (p : Port) : State :=
  s.modPort p fun r =>
    { r.modReader (Reader.age s.now s.clock.tick) with
      nextPass := if atOrBefore r.nextPass s.now then plus r.nextPass 500 else r.nextPass }

/-- A reader pass (R62); none when its reading never ends. -/
def State.readerPass (s : State) (p : Port) : Option State :=
  let aged := s.beginPass p
  if aged.safeLow || (aged.port p).reader.isHeld then some aged
  else match State.readOn passFuel p ((aged.takePhrase p).getD aged) with
    | some s' => some (s'.modPort p (PortRec.settle s'.now))
    | none => none

/-- READER_PASS as a command. A pass that never ends stops the model (log 6). -/
def execReaderPass (p : Port) (s : State) : Result :=
  if s.resetLow then .next s
  else match s.readerPass p with
    | some s' => .next s'
    | none => .fault .endlessPass

/-! ### Stopping, flushing and resuming (R72 to R74) -/

/-- Every queued phrase discarded and counted (R56). -/
def Reader.discardQueue (rd : Reader) : Reader :=
  { rd with queue := [], discards := min (rd.discards + rd.queue.length) 65535 }

/-- The current phrase, if any, leaves READING for `next`, and is done if nothing of it is outstanding (R71, R72). -/
def PortRec.leaveReading (now : StageTime) (next : ReadingState) (r : PortRec) : PortRec :=
  match r.reader.current with
  | some o => (r.modReader (Reader.modRecord o.serial fun x => { x with reading := next })).finishIfDone now o.serial
  | none => r

/-- PORT_STOP in mode NOW, but for the settling: queue discarded, current phrase CUT, chain end absent (R72). -/
def PortRec.stopNow (now : StageTime) (r : PortRec) : PortRec :=
  ((r.modReader Reader.discardQueue).leaveReading now .cut).modReader fun rd => { rd with chainEnd := none }

/-- PORT_STOP in its owning block (R72): AT_END is 0, NOW is 1 and CUT is 2 (R197). -/
def portStopBody (p : Port) (mode : Byte) : Body := fun s =>
  match mode.toNat with
  | 0 => accept (s.modPort p fun r => (r.modReader Reader.discardQueue).settle s.now)
  | 1 => accept (s.modPort p fun r => (r.stopNow s.now).settle s.now)
  | 2 =>
    accept (((s.modPort p (PortRec.stopNow s.now)).withdraw (fun ref => ref.port == p) .withdrawn).modPort p
      (PortRec.settle s.now))
  | _ => refuse .range s

/-- PORT_STOP taken at a port. -/
def execPortStop (p : Port) (mode : Byte) (s : State) : Result := .next (takeRequest p (portStopBody p mode) s)

/-- PORT_FLUSH in its owning block (R73). -/
def portFlushBody (p : Port) : Body := fun s => accept (s.modPort p fun r => (r.stopNow s.now).settleNow s.now)

/-- PORT_FLUSH taken at a port. -/
def execPortFlush (p : Port) (s : State) : Result := .next (takeRequest p (portFlushBody p) s)

/-- The chain end an errored phrase leaves: the end it would have had after all its passes (R74). -/
def OpenRec.erroredEnd (o : OpenRec) : Option ChainEnd :=
  if o.length = 0 || decide (2147483647 < (1 + o.passesLeft) * o.length) then none
  else some { clock := o.clock, pos := plus (o.passOrigin o.pass) ((1 + o.passesLeft) * o.length) }

/-- PORT_GO on a port held by a program error: the current phrase becomes ERRORED (R74). -/
def PortRec.errorCurrent (now : StageTime) (r : PortRec) : PortRec :=
  match r.reader.current with
  | some o => (r.modReader fun rd => { rd with chainEnd := o.erroredEnd }).leaveReading now .errored
  | none => r

/-- PORT_GO in its owning block (R74). -/
def portGoBody (p : Port) : Body := fun s =>
  if s.safeLow then refuse .safe s
  else match (s.port p).reader.state with
    | .held (.program _) => accept (s.modPort p fun r => (r.errorCurrent s.now).settleNow s.now)
    | .held _ => accept (s.modPort p (PortRec.settleNow s.now))
    | _ => refuse .state s

/-- PORT_GO taken at a port. -/
def execPortGo (p : Port) (s : State) : Result := .next (takeRequest p (portGoBody p) s)

/-! ### PORT_READ (R78, R198) -/

/-- The port state and hold cause in a reply. -/
def PortState.bytes : PortState → List Byte
  | .idle => [0, 0, 0]
  | .playing => [1, 0, 0]
  | .draining => [2, 0, 0]
  | .held .faultStop => [3, 1, 0]
  | .held .safe => [3, 2, 0]
  | .held (.program .linkLoop) => [3, 3, 1]
  | .held (.program .badKind) => [3, 3, 2]
  | .held (.program .addressEnd) => [3, 3, 3]

/-- The chain end in a reply. -/
def chainEndBytes : Option ChainEnd → List Byte
  | none => 0 :: bytesOf 4 0
  | some e => (if e.clock = .free then 3 else 1) :: bytes32 e.pos

/-- An origin's mode and value in a reply; an absent value is 0. -/
def Origin.bytes : Origin → List Byte
  | .atTick t => 0 :: bytes32 t
  | .nextBar => 1 :: bytesOf 4 0
  | .atTime t => 2 :: bytes32 t
  | .nowPlus d => 3 :: bytesOf 4 d
  | .after => 4 :: bytesOf 4 0

/-- The flags of a phrase: bit 0 clock FREE, bit 1 OVERHANG, bit 2 STOP_ON_FAULT. -/
def phraseFlags (clock : PhraseClock) (overhang stopOnFault : Bool) : Nat :=
  (if clock = .free then 1 else 0) + 2 * overhang.toNat + 4 * stopOnFault.toNat

/-- A queued slot in a reply, 14 bytes (R198). -/
def QueueSlot.bytes (q : QueueSlot) : List Byte :=
  [q.serial] ++ bytesOf 2 q.start ++ q.origin.bytes ++
    byte1 (phraseFlags q.head.clock q.head.overhang q.head.stopOnFault + 8 * q.originPassed.toNat) ++
    byte1 q.head.repeats ++ bytesOf 4 q.head.length

/-- The number of a reading state (R198). -/
def ReadingState.num : ReadingState → Nat
  | .reading => 0 | .ended => 1 | .cut => 2 | .errored => 3

/-- An open record in a reply, 19 bytes (R198). -/
def OpenRec.bytes (o : OpenRec) : List Byte :=
  [o.serial] ++ byte1 (phraseFlags o.clock o.overhang o.stopOnFault + 16 * o.reading.num) ++ bytes32 o.origin ++
    bytesOf 4 o.length ++ byte1 o.passesLeft ++ byte1 o.pass ++ bytesOf 2 o.addr ++ byte1 o.links ++
    bytesOf 2 o.outstanding ++ bytesOf 2 o.exceptions

/-- The reader as PORT_READ returns it (R78, R198). -/
def Reader.bytes (rd : Reader) : List Byte :=
  rd.state.bytes ++ byte1 rd.level ++ chainEndBytes rd.chainEnd ++ [rd.nextSerial] ++ bytesOf 2 rd.discards ++
    byte1 rd.queue.length ++ byte1 rd.opened.length ++ rd.queue.flatMap QueueSlot.bytes ++
    rd.opened.flatMap OpenRec.bytes

/-- PORT_READ in its owning block (R78). -/
def portReadBody (p : Port) : Body := fun s => answer s (s.port p).reader.bytes

/-- PORT_READ taken at a port. -/
def execPortRead (p : Port) (s : State) : Result := .next (takeRequest p (portReadBody p) s)

end Sys2Proof.Machine
end

