-- ==== Sys2Proof/Machine/Chains.lean ====
section
/-! DEFINITION. The drive chains: placing and sending frames, receiving reports, scans, and the requests CHAIN_SCAN and
CHAIN_READ (chapter 08). -/

namespace Sys2Proof.Machine

/-! ### The transmitter (R137, R138) -/

/-- A frame placed at the tail: it begins at once when the transmitter is IDLE, and waits otherwise; busy-until
moves to its end (R138). -/
def Chain.place (now : StageTime) (tf : Nat) (f : DriveFrame) (ch : Chain) : Chain :=
  match ch.sending with
  | none => { ch with sending := some (f, now), busyUntil := some (plus now tf) }
  | some _ => { ch with queue := ch.queue ++ [f], busyUntil := some (plus (ch.busyUntil.getD now) tf) }

/-- The time at which a frame placed now will begin: the actual send start (R139). -/
def Chain.sendStart (now : StageTime) (ch : Chain) : StageTime :=
  match ch.busyUntil with
  | some b => laterOf now b
  | none => now

/-- The end of the frame in transmission: it is delivered, and the next frame begins at once or the transmitter
becomes IDLE (R138). -/
def Chain.endFrame (tf : Nat) (ch : Chain) : Chain :=
  match ch.sending with
  | none => ch
  | some (f, start) =>
    match ch.queue with
    | [] => { ch with sending := none, busyUntil := none, lastSent := some f.word }
    | g :: rest => { ch with sending := some (g, plus start tf), queue := rest, lastSent := some f.word }

/-- Whether the frame in transmission has reached its end. -/
def Chain.frameDone (now : StageTime) (tf : Nat) (ch : Chain) : Bool :=
  match ch.sending with
  | some (_, start) => atOrBefore (plus start tf) now
  | none => false

/-- The queue discarded, all but a frame already in transmission (R140). -/
def Chain.discard (tf : Nat) (ch : Chain) : Chain :=
  { ch with queue := [], busyUntil := ch.sending.map fun x => plus x.2 tf }

/-- FRAME_END as a command (R138). -/
def execFrameEnd (d : ChainId) (s : State) : Result :=
  .next (unlessReset (fun s =>
    if (s.chain d).frameDone s.now s.settings.frameTime then s.modChain d (Chain.endFrame s.settings.frameTime) else s) s)

/-- The chain is at rest: its transmit queue empty and no frame in transmission (R134, R149). -/
def Chain.idle (ch : Chain) : Bool := ch.queue.isEmpty && ch.sending.isNone

/-! ### Receiving (R144) -/

/-- A scan that has collected a board with its hold mask (R147). -/
def Scan.collect (board : Fin 4) (mask : Byte) (sc : Scan) : Scan :=
  { sc with found := sc.found.set board.val (some mask) board.isLt }

/-- A received frame acted on in the order of R144. A scan that the safe state has interrupted collects no HELLO of a
board it does not listen for (R151). -/
def Chain.receive (now : StageTime) (word : BitVec 32) (ch : Chain) : Chain :=
  match decodeReport word with
  | none => { ch with checkErrors := satSucc ch.checkErrors 65535 }
  | some (.hello board mask) =>
    match ch.scan with
    | some sc => if sc.listens[board] then { ch with scan := some (sc.collect board mask) } else ch
    | none => ch
  | some (.report kind board output) =>
    if ch.reports.length < 16 then
      { ch with reports := ch.reports ++ [{ kind := kind, board := board, output := output, placed := now }] }
    else { ch with overflow := true, lost := satSucc ch.lost 65535 }

/-- REPORT_RECEIVE as a command (R144). -/
def execReportReceive (d : ChainId) (word : BitVec 32) (s : State) : Result :=
  .next (unlessReset (fun s => s.modChain d (Chain.receive s.now word)) s)

/-! ### Scans (R147 to R151) -/

/-- The start of a scan: it is in progress with nothing collected, and four PINGs are placed unless SAFE is asserted
(R147). Under SAFE it listens for no board, since none is asked (R148, log 22). -/
def Chain.startScan (now : StageTime) (tf : Nat) (kind : ScanKind) (safe : Bool) (ch : Chain) : Chain :=
  let ch1 := { ch with scan := some { start := now, kind := kind, found := Vector.replicate 4 none,
                                       listens := Vector.replicate 4 (!safe) } }
  if safe then ch1
  else (((ch1.place now tf (.ping 0)).place now tf (.ping 1)).place now tf (.ping 2)).place now tf (.ping 3)

/-- Whether the PING for a board still waits or is in transmission: it has not been delivered. -/
def Chain.pinging (ch : Chain) (board : Fin 4) : Bool :=
  ch.queue.contains (.ping board) || (match ch.sending with | some (f, _) => f == .ping board | none => false)

/-- A scan from which the boards outside `heard` are shut out: nothing of theirs is kept or collected (R151). -/
def Scan.restrict (heard : Fin 4 → Bool) (sc : Scan) : Scan :=
  { sc with found := Vector.ofFn fun b => if sc.listens[b] && heard b then sc.found[b] else none,
            listens := Vector.ofFn fun b => sc.listens[b] && heard b }

/-- The scan of a chain at the entry into the safe state: it goes on with the boards whose PING was delivered before
the entry, and with no others (R151, log 22). -/
def Chain.interruptScan (ch : Chain) : Chain :=
  { ch with scan := ch.scan.map (Scan.restrict fun b => !ch.pinging b) }

/-- The channels of a chain. -/
def chainChannels (d : ChainId) : List ChanId := (List.finRange 128).filter fun c => chainOf c == d

/-- A chain whose scan ends: the collected boards become the present boards (R147). -/
def Chain.endScan (sc : Scan) (ch : Chain) : Chain := { ch with boards := sc.found, scan := none }

/-- Whether 2 ms have passed since the start of the scan in progress (R147). -/
def Chain.scanDone (now : StageTime) (ch : Chain) : Bool :=
  match ch.scan with
  | some sc => atOrBefore (plus sc.start 2000) now
  | none => false

/-- The end of a scan: the present-board set is replaced and the chain's channels are settled (R25, R147). -/
def State.endScan (s : State) (d : ChainId) : State :=
  match (s.chain d).scan with
  | some sc => (chainChannels d).foldl State.settleUnlessFaulted (s.modChain d (Chain.endScan sc))
  | none => s

/-- SCAN_END as a command (R147). -/
def execScanEnd (d : ChainId) (s : State) : Result :=
  .next (unlessReset (fun s => if (s.chain d).scanDone s.now then s.endScan d else s) s)

/-- CHAIN_SCAN in its owning block (R149). -/
def chainScanBody (chain : Byte) : Body := fun s =>
  if h : chain.toNat < 4 then
    let d : ChainId := ⟨chain.toNat, h⟩
    if s.safeLow then refuse .safe s
    else if s.scanning d || (chainChannels d).any s.channelBusy || !(s.chain d).idle then refuse .busy s
    else accept (s.modChain d (Chain.startScan s.now s.settings.frameTime .request s.safeLow))
  else refuse .range s

/-- CHAIN_SCAN taken at a port. -/
def execChainScan (p : Port) (chain : Byte) (s : State) : Result := .next (takeRequest p (chainScanBody chain) s)

/-! ### CHAIN_READ (R152, R198) -/

/-- The present-board set as a byte: bit i for board i (R198). -/
def boardSetByte (boards : Vector (Option Byte) 4) : Byte :=
  BitVec.ofNat 8 (boards[0].isSome.toNat + 2 * boards[1].isSome.toNat + 4 * boards[2].isSome.toNat +
    8 * boards[3].isSome.toNat)

/-- A scan's kind and start time in a reply. -/
def Scan.bytes (sc : Scan) : List Byte :=
  (match sc.kind with | .startUp => [0] | .request => [1]) ++ bytes32 sc.start

/-- The chain as CHAIN_READ returns it (R152). The hold masks stand in the order of their boards (log 11). -/
def Chain.bytes (ch : Chain) : List Byte :=
  byte1 ch.queue.length ++ optional 1 (fun (x : DriveFrame × StageTime) => byte1 x.1.code) ch.sending ++
    optional 4 bytes32 ch.busyUntil ++ byte1 ch.reports.length ++ [boardSetByte ch.boards] ++
    counted (fun (m : Byte) => [m]) (ch.boards.toList.filterMap id) ++ optional 5 Scan.bytes ch.scan ++
    bytesOf 2 ch.checkErrors ++ bytesOf 2 ch.stale ++ bytesOf 2 ch.lost ++ flagByte ch.overflow

/-- CHAIN_READ in its owning block: the values, then the overflow latch clears (R146, R152). -/
def chainReadBody (chain : Byte) : Body := fun s =>
  if h : chain.toNat < 4 then
    let d : ChainId := ⟨chain.toNat, h⟩
    answer (s.modChain d fun ch => { ch with overflow := false }) (s.chain d).bytes
  else refuse .range s

/-- CHAIN_READ taken at a port. -/
def execChainRead (p : Port) (chain : Byte) (s : State) : Result := .next (takeRequest p (chainReadBody chain) s)

end Sys2Proof.Machine
end

