-- ==== Sys2Proof/Machine/Launch.lean ====
section
/-! DEFINITION. The strike engine's launch event and the energised set (chapter 07, sections 7.1 and 7.2). -/

namespace Sys2Proof.Machine

/-! ### The energised set (R114, R115) -/

/-- The energised-until of a strike member, if the channel is one. -/
def strikeTill (l : List Member) (c : ChanId) : Option StageTime := (l.find? fun m => m.chan == c).bind Member.till

/-- A set without a channel. -/
def deenergise (c : ChanId) (l : List Member) : List Member := l.filter fun m => m.chan != c

/-- A set with a member, kept in channel order, each channel at most once (log 12). -/
def putMember (m : Member) (l : List Member) : List Member :=
  placeAfter (fun x => decide (x.chan.val < m.chan.val)) m (deenergise m.chan l)

/-- A strike launch adds its channel, or extends the energised-until it holds (R115). -/
def energiseStrike (c : ChanId) (till : StageTime) (l : List Member) : List Member :=
  putMember { chan := c, till := some (match strikeTill l c with | some t => laterOf t till | none => till) } l

/-- A HOLD_LIFT launch on a DOWN channel adds it as a hold member (R126, log 13). -/
def energiseHold (c : ChanId) (l : List Member) : List Member := putMember { chan := c, till := none } l

/-- The earliest energised-until among the strike members (R121). -/
def earliestTill : List Member → Option StageTime
  | [] => none
  | m :: ms =>
    match m.till, earliestTill ms with
    | some t, some u => some (if earlier u t then u else t)
    | some t, none => some t
    | none, u => u

/-- ENERGISED_UNTIL_EXPIRY as a command: a strike member leaves at its energised-until (R115). -/
def execEnergisedUntilExpiry (c : ChanId) (s : State) : Result :=
  .next (unlessReset (fun s =>
    if endReached s.now (strikeTill s.energised c) then { s with energised := deenergise c s.energised } else s) s)

/-! ### The checks (R116 to R123, R125) -/

/-- What the checks come to: go, with the pulse and the degraded flag; try again at a proposed send time, the outcome
of being too late named; or drop. -/
inductive Verdict where
  | go (pulse : Nat) (degraded : Bool)
  | again (proposed : StageTime) (ifLate : OutcomeCode)
  | drop (code : OutcomeCode)
  deriving DecidableEq, Repr

/-- The proposed send time of a channel that is not ready; none when it is ready (R35, R119). -/
def Channel.notReady (now : StageTime) (ch : Channel) : Option StageTime :=
  match ch.slot, ch.readyAfter with
  | none, none => none
  | none, some r => if atOrBefore r now then none else some r
  | some _, none => some (plus now 1000)
  | some _, some r => if atOrBefore r now then some (plus now 1000) else some (laterOf r (plus now 1000))

/-- The supply-limit check for a channel that would be a new strike or hold member (R121); none passes. -/
def State.supplyCheck (s : State) (c : ChanId) : Option Verdict :=
  if (strikeTill s.energised c).isSome || decide (s.energised.length < s.settings.supplyLimit) then none
  else match earliestTill s.energised with
    | none => some (.drop .supply)
    | some t => some (.again (if later t s.now then t else plus s.now 1) .supply)

/-- The heat check: the pulse as armed or cut to the headroom, or none for THERMAL (R122). -/
def Channel.heatCheck (pulse : Nat) (ch : Channel) : Option (Nat × Bool) :=
  let headroom := ch.scalars.heatLimit - ch.heat
  if pulse ≤ headroom then some (pulse, false)
  else if ch.scalars.pulseMin ≤ headroom then some (headroom, true)
  else none

/-- Whether a chain's transmit queue has room (R137). -/
def Chain.hasRoom (ch : Chain) : Bool := decide (ch.queue.length < 16)

/-- The six checks of a STRIKE entry, in order (R118). -/
def State.strikeVerdict (s : State) (c : ChanId) (fig : Figures) : Verdict :=
  match s.channelCheck c .strike with
  | some code => .drop code
  | none =>
    match (s.chan c).notReady s.now with
    | some t => .again t .recovery
    | none =>
      if s.supplyLow then .drop .supply
      else match s.supplyCheck c with
        | some v => v
        | none =>
          match (s.chan c).heatCheck fig.pulse with
          | none => .drop .thermal
          | some (pulse, degraded) =>
            if (s.chain (chainOf c)).hasRoom then .go pulse degraded
            else .again (plus s.now s.settings.frameTime) .late

/-- The checks of a HOLD_LIFT entry (R125). -/
def State.liftVerdict (s : State) (c : ChanId) : Verdict :=
  match s.channelCheck c .hold with
  | some code => .drop code
  | none =>
    if s.supplyLow then .drop .supply
    else match (if (s.chan c).hold.isSome then none else s.supplyCheck c) with
      | some v => v
      | none =>
        if (s.chain (chainOf c)).hasRoom then .go 0 false else .again (plus s.now s.settings.frameTime) .late

/-- The checks of a HOLD_DROP entry (R125). -/
def State.dropVerdict (s : State) (c : ChanId) : Verdict :=
  match s.channelCheck c .hold with
  | some code => .drop code
  | none => if (s.chain (chainOf c)).hasRoom then .go 0 false else .again (plus s.now s.settings.frameTime) .late

/-! ### Launching (R124, R126, R127, R166) -/

/-- The bin of a histogram whose range holds a count of µs (R165). -/
def binOf (x : Nat) : Fin 8 :=
  if x < 50 then 0 else if x < 200 then 1 else if x < 500 then 2 else if x < 1000 then 3
  else if x < 2000 then 4 else if x < 5000 then 5 else if x < 10000 then 6 else 7

/-- A histogram with one more sample, its bin stopping at 65535 (R165, R166). -/
def addSample (x : Nat) (h : Vector Nat 8) : Vector Nat 8 :=
  h.set (binOf x).val (satSucc h[binOf x] 65535) (binOf x).isLt

/-- A launch's lateness fed to the accumulating set (R166). -/
def Monitor.sampleLateness (x : Nat) (m : Monitor) : Monitor := { m with accLateness := addSample x m.accLateness }

/-- A contact's landing error fed to the accumulating set (R166). -/
def Monitor.sampleLanding (e : Int) (m : Monitor) : Monitor := { m with accLanding := addSample e.natAbs m.accLanding }

/-- An entry that leaves without a launch: each of its references is given the outcome (R116). -/
def State.dropEntry (s : State) (e : Entry) (rest : List Entry) (code : OutcomeCode) : State :=
  (s.withTimeline rest).deliverAll e.owners (e.outcome code none)

/-- A retime, unless the launch late check drops the entry (R99, R117). -/
def State.retime (s : State) (e : Entry) (rest : List Entry) (proposed : StageTime) (ifLate : OutcomeCode) : State :=
  if s.settings.tolerance < since e.ideal proposed then s.dropEntry e rest ifLate
  else s.withTimeline (placeEntry { e with send := proposed, retimed := true } rest)

/-- The tag counter after a tagged frame is placed (R36). -/
def Channel.nextTag (ch : Channel) : Channel := { ch with tag := ch.tag + 1 }

/-- The flight slot a launch fills (R34, R124 step 3). -/
def slotOf (g : Settings) (start : StageTime) (tag : BitVec 2) (e : Entry) (fig : Figures) (pulse : Nat)
    (degraded : Bool) : FlightSlot :=
  let launch := plus start g.frameTime
  { tag := tag, owners := e.owners, launch := launch, fig := { fig with pulse := pulse }, target := e.target,
    lateness := since e.ideal start, merged := e.merged, retimed := e.retimed, immediate := e.immediate,
    degraded := degraded, deadline := plus launch (g.reportWindow * 1000) }

/-- A channel record after a strike launch (R124 steps 1, 3, 4 and 5). -/
def Channel.launched (launch : StageTime) (slot : FlightSlot) (ch : Channel) : Channel :=
  { ch.nextTag with strikes := ch.strikes + 1, slot := some slot, heat := ch.heat + slot.fig.pulse,
                    readyAfter := some (plus launch (ch.scalars.recovery * 1000)) }

/-- The launch of a STRIKE entry (R124). -/
def State.launchStrike (s : State) (e : Entry) (rest : List Entry) (c : ChanId) (fig : Figures) (pulse : Nat)
    (degraded : Bool) : State :=
  let tf := s.settings.frameTime
  let start := (s.chain (chainOf c)).sendStart s.now
  let launch := plus start tf
  let tag := (s.chan c).tag
  let slot := slotOf s.settings start tag e fig pulse degraded
  let s1 := s.modChain (chainOf c) (Chain.place s.now tf (.fire (boardOf c) (outputOf c) tag pulse))
  let s2 := s1.modChan c (Channel.launched launch slot)
  { s2 with energised := energiseStrike c (plus launch (pulse * 10)) s2.energised,
            monitor := s2.monitor.sampleLateness slot.lateness }.withTimeline rest

/-- The launch of a HOLD entry, once its frame and its record are known (R126). -/
def State.launchHold (s : State) (e : Entry) (rest : List Entry) (c : ChanId) (frame : DriveFrame) (hold : Option Lift)
    (members : List Member) : State :=
  let lateness := since e.ideal ((s.chain (chainOf c)).sendStart s.now)
  let s1 := s.modChain (chainOf c) (Chain.place s.now s.settings.frameTime frame)
  let s2 := s1.modChan c fun ch => { ch.nextTag with hold := hold }
  (({ s2 with energised := members, monitor := s2.monitor.sampleLateness lateness }.withTimeline rest).deliverAll
    e.owners (e.outcome .holdSent (some lateness)))

/-- The launch of a HOLD_LIFT entry (R126). -/
def State.launchLift (s : State) (e : Entry) (rest : List Entry) (c : ChanId) (level : Nat) : State :=
  s.launchHold e rest c (.holdOn (boardOf c) (outputOf c) (s.chan c).tag level)
    (some { level := level, port := e.primary })
    (if (s.chan c).hold.isSome then s.energised else energiseHold c s.energised)

/-- The launch of a HOLD_DROP entry (R126). It takes the channel out of the energised set, also where it is still a
strike member: the model's choice (log 13). -/
def State.launchDrop (s : State) (e : Entry) (rest : List Entry) (c : ChanId) : State :=
  s.launchHold e rest c (.holdOff (boardOf c) (outputOf c) (s.chan c).tag) none (deenergise c s.energised)

/-- The completion of a MARK entry; MARKED goes with the MARK flag set (R127). -/
def State.completeMark (s : State) (e : Entry) (rest : List Entry) : State :=
  (s.withTimeline rest).deliverAll (e.owners.map fun r => { r with mark := true })
    (e.outcome .marked (some (since e.target s.now)))

/-- The act on the presented entry `e`, `rest` standing behind it (R116). -/
def State.present (s : State) (e : Entry) (rest : List Entry) : State :=
  match e.action with
  | .mark => s.completeMark e rest
  | .strike c fig =>
    match s.strikeVerdict c fig with
    | .go pulse degraded => s.launchStrike e rest c fig pulse degraded
    | .again t code => s.retime e rest t code
    | .drop code => s.dropEntry e rest code
  | .lift c level =>
    match s.liftVerdict c with
    | .go _ _ => s.launchLift e rest c level
    | .again t code => s.retime e rest t code
    | .drop code => s.dropEntry e rest code
  | .drop c =>
    match s.dropVerdict c with
    | .go _ _ => s.launchDrop e rest c
    | .again t code => s.retime e rest t code
    | .drop code => s.dropEntry e rest code

/-- Whether the head of the timeline is due (R99). -/
def State.headDue (s : State) : Bool :=
  match s.timeline with
  | e :: _ => atOrBefore e.send s.now
  | [] => false

/-- The presentation of the head when its send time has come (R99). -/
def presentationEvent (s : State) : State :=
  match s.timeline with
  | e :: rest => if atOrBefore e.send s.now then s.present e rest else s
  | [] => s

/-- PRESENTATION as a command (R116). -/
def execPresentation (s : State) : Result := .next (unlessReset presentationEvent s)

end Sys2Proof.Machine
end

