-- ==== Sys2Proof/Machine/Reports.lean ====
section
/-! DEFINITION. The report handler and the timing monitor (chapter 09). -/

namespace Sys2Proof.Machine

/-! ### Finishing a stroke (R156) -/

/-- The outcome of the stroke in a slot (R156). `landed` is given for STRUCK alone. -/
def FlightSlot.outcome (slot : FlightSlot) (c : ChanId) (code : OutcomeCode) (landed : Option (Nat × Int)) :
    OutcomeData :=
  { code := code, chan := some c, vEff := slot.fig.vEff, pulse := slot.fig.pulse, lateness := some slot.lateness,
    landed := landed, merged := slot.merged, retimed := slot.retimed, immediate := slot.immediate,
    degraded := slot.degraded }

/-- A change of a channel record, CHANNEL_FAULT raised in every port when it was an entry into FAULTED (R164). -/
def State.changeChannel (s : State) (c : ChanId) (f : Channel → Channel) : State :=
  if entersFaulted (s.chan c) (f (s.chan c)) then (s.modChan c f).raiseAll .channelFault else s.modChan c f

/-- Finishing the stroke in a slot: the channel record, CHANNEL_FAULT, then one outcome for each owner (R156). -/
def State.finishStroke (s : State) (c : ChanId) (slot : FlightSlot) (f : Channel → Channel) (code : OutcomeCode)
    (landed : Option (Nat × Int)) : State :=
  (s.changeChannel c fun ch => f { ch with slot := none }).deliverAll slot.owners (slot.outcome c code landed)

/-- A matched CONTACT: STRUCK (R157). -/
def State.takeContact (s : State) (c : ChanId) (slot : FlightSlot) (flight : Nat) : State :=
  let error := landingError slot.launch slot.target flight
  let s1 := { s with monitor := s.monitor.sampleLanding error }
  s1.finishStroke c slot
    (fun ch => Channel.adapt s.settings.outlierLimit slot flight { ch with misses := 0, lastFlight := some flight })
    .struck (some (flight, error))

/-- A matched NO_CONTACT: SILENT (R158). -/
def State.takeNoContact (s : State) (c : ChanId) (slot : FlightSlot) : State :=
  s.finishStroke c slot Channel.miss .silent none

/-- A matched COIL_OPEN or COIL_SHORT: FAULT (R159). -/
def State.takeCoilFault (s : State) (c : ChanId) (slot : FlightSlot) (cause : FaultCause) : State :=
  s.finishStroke c slot (Channel.fault cause) .fault none

/-- A stale report (R155). -/
def State.takeStale (s : State) (d : ChainId) : State :=
  s.modChain d fun ch => { ch with stale := satSucc ch.stale 65535 }

/-- A channel's hold ended by a fault: DOWN, and out of the energised set (R162 steps 2 and 3). -/
def State.endHold (s : State) (c : ChanId) : State :=
  let s1 := s.modChan c fun ch => { ch with hold := none }
  { s1 with energised := deenergise c s1.energised }

/-- A coil fault on a HOLD channel (R162). -/
def State.takeHoldFault (s : State) (c : ChanId) (cause : FaultCause) : State :=
  let faulted := (s.modChan c (Channel.fault cause)).endHold c
  if entersFaulted (s.chan c) ((s.chan c).fault cause) then faulted.raiseAll .channelFault else faulted

/-- A JAM; for a channel already FAULTED it changes nothing (R163). -/
def State.takeJam (s : State) (c : ChanId) : State :=
  if (s.chan c).presence = .faulted then s
  else if (s.chan c).kind = some .hold then s.takeHoldFault c .jam else s.changeChannel c (Channel.fault .jam)

/-- The slot a tagged report matches: occupied, with the report's tag (R155). -/
def Channel.matches (tag : BitVec 2) (ch : Channel) : Option FlightSlot :=
  match ch.slot with
  | some slot => if slot.tag = tag then some slot else none
  | none => none

/-- What the handler does with a report taken from chain `d` (R154). -/
def State.handle (s : State) (d : ChainId) (r : Report) : State :=
  let c := chanAt d r.board r.output
  let held := (s.chan c).kind = some .hold
  match r.kind with
  | .jam => s.takeJam c
  | .contact tag flight =>
    if held then s.takeStale d
    else match (s.chan c).matches tag with
      | some slot => s.takeContact c slot flight
      | none => s.takeStale d
  | .noContact tag =>
    if held then s.takeStale d
    else match (s.chan c).matches tag with
      | some slot => s.takeNoContact c slot
      | none => s.takeStale d
  | .coilOpen tag =>
    if held then s.takeHoldFault c .coilOpen
    else match (s.chan c).matches tag with
      | some slot => s.takeCoilFault c slot .coilOpen
      | none => s.takeStale d
  | .coilShort tag =>
    if held then s.takeHoldFault c .coilShort
    else match (s.chan c).matches tag with
      | some slot => s.takeCoilFault c slot .coilShort
      | none => s.takeStale d

/-- The stage time at which the head report is taken: 50 µs after the later of its placing and the previous take
(R154). -/
def Chain.takeTime (r : Report) (ch : Chain) : StageTime :=
  match ch.lastTake with
  | some t => plus (laterOf r.placed t) 50
  | none => plus r.placed 50

/-- Whether the head report of a chain is due to be taken. -/
def Chain.takeDue (now : StageTime) (ch : Chain) : Bool :=
  match ch.reports with
  | r :: _ => atOrBefore (ch.takeTime r) now
  | [] => false

/-- REPORT_TAKE: the head report leaves its queue and is acted on in full (R145, R154). -/
def reportTakeEvent (d : ChainId) (s : State) : State :=
  match (s.chain d).reports with
  | r :: rest =>
    if atOrBefore ((s.chain d).takeTime r) s.now then
      (s.modChain d fun ch => { ch with reports := rest, lastTake := some s.now }).handle d r
    else s
  | [] => s

/-- REPORT_TAKE as a command. -/
def execReportTake (d : ChainId) (s : State) : Result := .next (unlessReset (reportTakeEvent d) s)

/-- DEADLINE: an occupied slot whose deadline has come ends NO_REPORT (R160). -/
def deadlineEvent (c : ChanId) (s : State) : State :=
  match (s.chan c).slot with
  | some slot => if atOrBefore slot.deadline s.now then s.finishStroke c slot Channel.miss .noReport none else s
  | none => s

/-- DEADLINE as a command. -/
def execDeadline (c : ChanId) (s : State) : Result := .next (unlessReset (deadlineEvent c) s)

/-! ### The timing monitor (R165, R167) -/

/-- The end of a window: publish, clear, count, and set the next expiry (R165). -/
def Monitor.publish (window : Nat) (m : Monitor) : Monitor :=
  { accLateness := Vector.replicate 8 0, accLanding := Vector.replicate 8 0, pubLateness := m.accLateness,
    pubLanding := m.accLanding, publications := m.publications + 1,
    nextExpiry := plus m.nextExpiry (window * 1000000) }

/-- MONITOR_WINDOW_END as a command (R165). -/
def execMonitorWindowEnd (s : State) : Result :=
  .next (unlessReset (fun s =>
    if atOrBefore s.monitor.nextExpiry s.now then
      { s with monitor := s.monitor.publish s.settings.monitorWindow } else s) s)

/-- The monitor as TIMING_READ returns it; the time left takes the 3 bytes its range needs (R167, R198, log 11). -/
def State.timingBytes (s : State) : List Byte :=
  s.monitor.pubLateness.toList.flatMap (bytesOf 2) ++ s.monitor.pubLanding.toList.flatMap (bytesOf 2) ++
    bytes16 s.monitor.publications ++ byte1 s.settings.monitorWindow ++
    bytesOf 3 (since s.now s.monitor.nextExpiry / 1000)

/-- TIMING_READ in its owning block (R167). -/
def timingReadBody : Body := fun s => answer s s.timingBytes

/-- TIMING_READ taken at a port. -/
def execTimingRead (p : Port) (s : State) : Result := .next (takeRequest p timingReadBody s)

end Sys2Proof.Machine
end

