-- ==== Sys2Proof/Machine/System.lean ====
section
/-! DEFINITION. Supply sag, the cooling step, the safe state and the system settings (chapter 07, sections 7.4 to
7.7). -/

namespace Sys2Proof.Machine

/-! ### Supply sag (R128) -/

/-- SAG_BEGIN as a command: a fall of SUPPLY_OK starts the condition, sets the latch and is a rising edge of SUPPLY.
While RESET is asserted only the line moves (log 4); a line that is low already does not fall (log 16). -/
def execSagBegin (s : State) : Result :=
  .next (if s.supplyLow then s
    else if s.resetLow then { s with supplyLow := true }
    else { s with supplyLow := true, sagLatch := true }.edgeAll .supply true)

/-- SAG_END as a command: a rise of SUPPLY_OK ends the condition and is a falling edge of SUPPLY. -/
def execSagEnd (s : State) : Result :=
  .next (if !s.supplyLow then s
    else if s.resetLow then { s with supplyLow := false }
    else { s with supplyLow := false }.edgeAll .supply false)

/-- SUPPLY_ACK in its owning block: the latch clears, and is set again at once while the condition holds (R128). -/
def supplyAckBody : Body := fun s => accept { s with sagLatch := s.supplyLow }

/-- SUPPLY_ACK taken at a port. -/
def execSupplyAck (p : Port) (s : State) : Result := .next (takeRequest p supplyAckBody s)

/-! ### The cooling step (R129, R130) -/

/-- Steps 1 and 2 of a cooling step for one channel: cooling, then hold heating (R129). -/
def Channel.cool (ch : Channel) : Channel :=
  let cooled := if ch.heat = 0 then 0 else ch.heat - max 1 (ch.heat * ch.scalars.coolingRate / 256)
  match ch.hold with
  | none => { ch with heat := cooled }
  | some l => { ch with heat := min (cooled + (l.level + 3) / 4) ch.scalars.heatLimit }

/-- Step 4: a ready-after that has passed becomes absent (R129). -/
def Channel.dropReadyAfter (now : StageTime) (ch : Channel) : Channel :=
  match ch.readyAfter with
  | some t => if atOrBefore t now then { ch with readyAfter := none } else ch
  | none => ch

/-- A forced drop of a LIFTED channel, when its chain's queue has room (R130). -/
def State.forcedDrop (s : State) (c : ChanId) (l : Lift) : State :=
  if (s.chain (chainOf c)).hasRoom then
    let s1 := s.modChain (chainOf c)
      (Chain.place s.now s.settings.frameTime (.holdOff (boardOf c) (outputOf c) (s.chan c).tag))
    let s2 := s1.modChan c fun ch => { ch.nextTag with hold := none }
    let s3 := { s2 with energised := deenergise c s2.energised }
    match l.port with
    | some p => s3.deliver (OwnerRef.bare p) (OutcomeData.plain .holdDropped (some c))
    | none => s3
  else s

/-- The cooling step of one channel (R129). -/
def State.coolChannel (s : State) (c : ChanId) : State :=
  let s1 := s.modChan c Channel.cool
  let s2 := match (s1.chan c).hold with
    | some l => if (s1.chan c).heat = (s1.chan c).scalars.heatLimit then s1.forcedDrop c l else s1
    | none => s1
  s2.modChan c (Channel.dropReadyAfter s2.now)

/-- COOLING_STEP: every channel in order, the step timer moving on by 10 ms when it was due (R129, log 5). -/
def coolingEvent (s : State) : State :=
  (List.finRange 128).foldl State.coolChannel
    { s with nextCooling := if atOrBefore s.nextCooling s.now then plus s.nextCooling 10000 else s.nextCooling }

/-- COOLING_STEP as a command. -/
def execCoolingStep (s : State) : Result := .next (unlessReset coolingEvent s)

/-! ### The safe state (R131 to R133) -/

/-- A chain at the entry into the safe state: a scan in progress interrupted, the queue discarded, SAFE_ALL placed
(R131 step 2, R140, R151). -/
def Chain.safeAll (now : StageTime) (tf : Nat) (ch : Chain) : Chain :=
  (ch.interruptScan.discard tf).place now tf .safeAll

/-- A port at the entry into the safe state: HELD with cause SAFE if it is PLAYING or DRAINING (R76). -/
def PortRec.safeHold (now : StageTime) (r : PortRec) : PortRec :=
  if r.reader.state = .idle then r else r.hold now .safe

/-- The entry into the safe state, its effects in the order of R131. -/
def State.enterSafe (s : State) : State :=
  let s1 := s.withdraw (fun _ => true) .safed
  let s2 := { s1 with chains := s1.chains.map (Chain.safeAll s1.now s1.settings.frameTime) }
  let s3 := { s2 with channels := s2.channels.map fun (ch : Channel) => { ch with hold := none } }
  { s3 with energised := [] }.modPorts (PortRec.safeHold s3.now)

/-- SAFE_ENTRY as a command: a fall of the SAFE line (R131), and a rising edge of the SAFE source (R177). While RESET
is asserted only the line moves (log 4); a line that is low already does not fall (log 16). -/
def execSafeEntry (s : State) : Result :=
  .next (if s.safeLow then s
    else if s.resetLow then { s with safeLow := true }
    else ({ s with safeLow := true }.enterSafe).edgeAll .safe true)

/-- SAFE_RELEASE as a command: a rise of the SAFE line (R133), and a falling edge of the SAFE source. -/
def execSafeRelease (s : State) : Result :=
  .next (if !s.safeLow then s
    else if s.resetLow then { s with safeLow := false }
    else { s with safeLow := false }.edgeAll .safe false)

/-! ### System settings (R134, R135) -/

/-- Every value of a SYS_SETUP lies within its range (R134 check 1, R198). -/
def settingsInRanges (f : SettingsFields) : Bool :=
  inRange 20 250 f.horizon.toNat && inRange 0 20000 f.tolerance.toNat && inRange 0 20000 f.mergeWindow.toNat &&
    inRange 20 200 f.reportWindow.toNat && inRange 1 16 f.supplyLimit.toNat && inRange 0 32 f.accentBoost.toNat &&
    inRange 0 2000 f.outlierLimit.toNat && inRange 16 256 f.highMark.toNat &&
    (f.bitRate == 1 || f.bitRate == 2 || f.bitRate == 4) && inRange 2 32 f.gapBits.toNat &&
    inRange 1 255 f.monitorWindow.toNat

/-- The settings a SYS_SETUP stores. -/
def settingsOf (f : SettingsFields) : Settings :=
  { horizon := f.horizon.toNat, tolerance := f.tolerance.toNat, mergeWindow := f.mergeWindow.toNat,
    reportWindow := f.reportWindow.toNat, supplyLimit := f.supplyLimit.toNat, accentBoost := f.accentBoost.toNat,
    outlierLimit := f.outlierLimit.toNat, highMark := f.highMark.toNat, bitRate := f.bitRate.toNat,
    gapBits := f.gapBits.toNat, monitorWindow := f.monitorWindow.toNat }

/-- The part is at rest for a SYS_SETUP with a new supply limit (R134 check 2). -/
def State.atRest (s : State) (newLimit : Nat) : Bool :=
  s.timeline.isEmpty && s.channels.all (fun ch => ch.slot.isNone) && s.chains.all Chain.idle &&
    decide (s.energised.length ≤ newLimit)

/-- SYS_SETUP in its owning block (R134, R165). -/
def sysSetupBody (f : SettingsFields) : Body := fun s =>
  if !settingsInRanges f then refuse .range s
  else if !s.atRest f.supplyLimit.toNat then refuse .busy s
  else accept { s with settings := settingsOf f,
                       monitor := { s.monitor with nextExpiry := plus s.now (f.monitorWindow.toNat * 1000000) } }

/-- SYS_SETUP taken at a port. -/
def execSysSetup (p : Port) (fields : SettingsFields) (s : State) : Result :=
  .next (takeRequest p (sysSetupBody fields) s)

/-- The settings in a reply, in the widths of the SYS_SETUP payload. -/
def Settings.bytes (g : Settings) : List Byte :=
  byte1 g.horizon ++ bytesOf 2 g.tolerance ++ bytesOf 2 g.mergeWindow ++ byte1 g.reportWindow ++
    byte1 g.supplyLimit ++ byte1 g.accentBoost ++ bytesOf 2 g.outlierLimit ++ bytesOf 2 g.highMark ++
    byte1 g.bitRate ++ byte1 g.gapBits ++ byte1 g.monitorWindow

/-- A member of the energised set in a reply: its channel, and its energised-until or its absence (R135). -/
def Member.bytes (m : Member) : List Byte := byte1 m.chan.val ++ optional 4 bytes32 m.till

/-- The engine and the shared budgets as SYS_READ returns them (R135, R198). The shared use takes 1 byte: by R100 it
lies in 0 to 224 (log 11). -/
def State.sysBytes (s : State) : List Byte :=
  s.settings.bytes ++ byte1 s.settings.frameTime ++ bytesOf 2 s.timeline.length ++
    bytesOf 2 (primaryCount s.timeline 0) ++ bytesOf 2 (primaryCount s.timeline 1) ++
    bytesOf 2 (primaryCount s.timeline 2) ++ byte1 (sharedUse s.timeline) ++ byte1 s.energised.length ++
    counted Member.bytes s.energised ++ flagByte s.supplyLow ++ flagByte s.sagLatch ++ flagByte s.safeLow

/-- SYS_READ in its owning block (R135). -/
def sysReadBody : Body := fun s => answer s s.sysBytes

/-- SYS_READ taken at a port. -/
def execSysRead (p : Port) (s : State) : Result := .next (takeRequest p sysReadBody s)

end Sys2Proof.Machine
end

