-- ==== Sys2Proof/Machine/Ports.lean ====
section
/-! DEFINITION. Score ports: NOP, PORT_RESET, the transaction with its dispatch, and the pin reset (chapter 11). -/

namespace Sys2Proof.Machine

/-! ### NOP and PORT_RESET (R191, R193) -/

/-- NOP taken at a port; every payload byte is disregarded (R191). -/
def execNop (p : Port) (_payload : List Byte) (s : State) : Result := .next (takeNop p s)

/-- A port at its PORT_RESET: unit, reader, cue match and beat mode take their reset values; the phrase memory
region, the link and the pass timer are kept (R193). -/
def PortRec.portReset (r : PortRec) : PortRec :=
  { r with unit := NoticeUnit.reset, reader := Reader.reset, cue := CueMatch.reset, beatMode := .off }

/-- A channel with port `p` gone from the owners of its slot and from its hold record (R40, R193). -/
def Channel.forgetPort (p : Port) (ch : Channel) : Channel :=
  { ch with
    slot := ch.slot.map fun f => { f with owners := f.owners.filter fun o => o.port != p },
    hold := ch.hold.map fun l => { l with port := if l.port = some p then none else l.port } }

/-- A clock with the cues of port `p` removed (R14, R193). -/
def Clock.forgetPort (p : Port) (c : Clock) : Clock := { c with cues := c.cues.filter fun x => x.owner.port != p }

/-- PORT_RESET in its owning block (R193). -/
def portResetBody (p : Port) : Body := fun s =>
  let s1 := (s.modPort p PortRec.portReset).withdrawSilently fun ref => ref.port == p
  accept { s1 with channels := s1.channels.map (Channel.forgetPort p), clock := s1.clock.forgetPort p }

/-- PORT_RESET taken at a port. -/
def execPortReset (p : Port) (s : State) : Result := .next (takeRequest p (portResetBody p) s)

/-! ### Dispatch (R187 step 4, R188, R197) -/

/-- A body for a payload of exactly `n` bytes; another length is refused with RANGE before any other check (R188). -/
def exactly (n : Nat) (payload : List Byte) (body : Body) : Body :=
  if payload.length = n then body else refuse .range

/-- The fields of a CHAN_SETUP payload after its channel (R197). -/
def setupOfBytes (l : List Byte) : SetupFields :=
  { kind := byteAt l 1, pulseMin := be16 l 2, pulseMax := be16 l 4, recovery := be16 l 6, heatLimit := be16 l 8,
    coolingRate := byteAt l 10, adaptShift := byteAt l 11, missLimit := byteAt l 12 }

/-- Knot `k` of a CHAN_CURVE payload (R197). -/
def knotOfBytes (l : List Byte) (k : Nat) : KnotFields := { pulse := be16 l (1 + 4 * k), flight := be16 l (3 + 4 * k) }

/-- The eight knots of a CHAN_CURVE payload. -/
def knotsOfBytes (l : List Byte) : Vector KnotFields 8 :=
  #v[knotOfBytes l 0, knotOfBytes l 1, knotOfBytes l 2, knotOfBytes l 3, knotOfBytes l 4, knotOfBytes l 5,
     knotOfBytes l 6, knotOfBytes l 7]

/-- The fields of a SYS_SETUP payload (R197). -/
def settingsOfBytes (l : List Byte) : SettingsFields :=
  { horizon := byteAt l 0, tolerance := be16 l 1, mergeWindow := be16 l 3, reportWindow := byteAt l 5,
    supplyLimit := byteAt l 6, accentBoost := byteAt l 7, outlierLimit := be16 l 8, highMark := be16 l 10,
    bitRate := byteAt l 12, gapBits := byteAt l 13, monitorWindow := byteAt l 14 }

/-- A CELLS_WRITE payload: its length is judged by check 1 of R42 (R188). -/
def cellsWritePayload (p : Port) (l : List Byte) : Body :=
  if l.length < 2 then refuse .range else cellsWriteBody p (be16 l 0) (l.drop 2)

/-- The requests with their kind bytes and, for a payload, the work of their owning blocks (R197). NOP, kind 0, is not
here: it is taken in every state of the part (R191). -/
def requestTable (p : Port) (l : List Byte) : List (Byte × Body) :=
  [(0x01, exactly 0 l (portResetBody p)),
   (0x10, exactly 1 l (runStopBody p true (byteAt l 0))),
   (0x11, exactly 1 l (runStopBody p false (byteAt l 0))),
   (0x12, exactly 8 l (clkPlaceBody p (byteAt l 0) (be32 l 1) (be16 l 5) (byteAt l 7))),
   (0x13, exactly 0 l clkReadBody),
   (0x14, exactly 2 l (tempoSetBody (be16 l 0))),
   (0x15, exactly 4 l (tempoGlideBody (be16 l 0) (be16 l 2))),
   (0x16, exactly 12 l (tempoCurveBody (be32 l 0) (be32 l 4) (be32 l 8))),
   (0x17, exactly 1 l (meterSetBody (byteAt l 0))),
   (0x18, exactly 4 l (cueSetBody p (be16 l 0) (byteAt l 2) (byteAt l 3))),
   (0x19, exactly 1 l (beatModeBody p (byteAt l 0))),
   (0x20, exactly 13 l (chanSetupBody (byteAt l 0) (setupOfBytes l))),
   (0x21, exactly 33 l (chanCurveBody (byteAt l 0) (knotsOfBytes l))),
   (0x22, exactly 1 l (chanReleaseBody (byteAt l 0))),
   (0x23, exactly 1 l (chanReadBody (byteAt l 0))),
   (0x28, cellsWritePayload p l),
   (0x29, exactly 3 l (cellsReadBody p (be16 l 0) (byteAt l 2))),
   (0x30, exactly 7 l (phrasePostBody p (be16 l 0) (byteAt l 2) (be32 l 3))),
   (0x31, exactly 1 l (portStopBody p (byteAt l 0))),
   (0x32, exactly 0 l (portFlushBody p)),
   (0x33, exactly 0 l (portGoBody p)),
   (0x34, exactly 3 l (strikeBody p (byteAt l 0) (byteAt l 1) (byteAt l 2))),
   (0x35, exactly 3 l (holdSetBody p (byteAt l 0) (byteAt l 1) (byteAt l 2))),
   (0x36, exactly 0 l (portReadBody p)),
   (0x40, exactly 15 l (sysSetupBody (settingsOfBytes l))),
   (0x41, exactly 0 l sysReadBody),
   (0x42, exactly 0 l supplyAckBody),
   (0x48, exactly 1 l (chainScanBody (byteAt l 0))),
   (0x49, exactly 1 l (chainReadBody (byteAt l 0))),
   (0x4A, exactly 0 l timingReadBody),
   (0x50, exactly 0 l (doneReadBody p)),
   (0x51, exactly 2 l (filterSetBody p (byteAt l 0) (byteAt l 1))),
   (0x52, exactly 2 l (noteMaskBody p (be16 l 0))),
   (0x53, exactly 1 l (noteEdgeBody p (byteAt l 0))),
   (0x54, exactly 2 l (noteClearBody p (be16 l 0))),
   (0x55, exactly 2 l (noteForceBody p (be16 l 0))),
   (0x56, exactly 0 l (noteReadBody p))]

/-- The work of a request kind; none where the kind names no request (R187 step 2). -/
def dispatch (p : Port) (kind : Byte) (l : List Byte) : Option Body := (requestTable p l).lookup kind

/-! ### The transaction (R184, R185, R187, R189) -/

/-- The fall of CS: the link opens with an emptied receive buffer (R184, R185). A link whose CS is low already does
not open again (log 16). -/
def Link.opened (k : Link) : Link :=
  if k.csLow then k
  else { k with isOpen := true, csLow := true, stored := [], total := 0, partialByte := false, sdo := [], sdoBits := [] }

/-- A port with its link changed. -/
def State.modLink (s : State) (p : Port) (f : Link → Link) : State :=
  s.modPort p fun r => { r with link := f r.link }

/-- TRANSACTION_OPEN as a command. While RESET is asserted only the line moves (R195, log 4). -/
def execTransactionOpen (p : Port) (s : State) : Result :=
  .next (if s.resetLow then s.modLink p fun k => { k with csLow := true } else s.modLink p Link.opened)

/-- The first `n` bits of a byte, most significant first (R184). -/
def leadingBits (n : Nat) (b : Byte) : List Bool := (List.range n).map fun i => b.getLsbD (7 - i)

/-- The rise of CS on an OPEN link: what was received and what SDO carried (R184, R185, R189). -/
def Link.closed (bytes : List Byte) (extra : BitVec 3) (k : Link) : Link :=
  let out := replyBytes k.reply
  { k with isOpen := false, csLow := false, stored := bytes.take 251, total := bytes.length,
           partialByte := extra != 0, sdo := (List.range bytes.length).map (byteAt out),
           sdoBits := leadingBits extra.toNat (byteAt out bytes.length) }

/-- The request frame a link has received: its kind and payload, or none where the bytes are not exactly one frame
with a good check (R187 step 1). -/
def Link.frame (k : Link) : Option (Byte × List Byte) :=
  let n := (byteAt k.stored 1).toNat
  if k.partialByte || decide (k.total < 3) || decide (248 < n) || k.total != n + 3 then none
  else if byteAt k.stored (n + 2) != crc8 (k.stored.take (n + 2)) then none
  else some (byteAt k.stored 0, (k.stored.drop 2).take n)

/-- The taking of a received transaction at port `p` (R187). -/
def takeReceived (p : Port) (s : State) : State :=
  match (s.port p).link.frame with
  | none => s.reply p (Reply.bare .badFrame)
  | some (kind, payload) =>
    if kind = 0 then takeNop p s
    else match dispatch p kind payload with
      | none => s.reply p (Reply.bare .unknown)
      | some body => takeRequest p body s

/-- The close of a transaction: disregarded when the link is not OPEN (R184, R195) or no whole byte was clocked
(R184), and taken otherwise. -/
def closeEvent (p : Port) (bytes : List Byte) (extra : BitVec 3) (s : State) : State :=
  if s.resetLow || !(s.port p).link.isOpen then s.modLink p fun k => { k with csLow := false }
  else if bytes.isEmpty then s.modLink p (Link.closed bytes extra)
  else takeReceived p (s.modLink p (Link.closed bytes extra))

/-- TRANSACTION_CLOSE as a command. -/
def execTransactionClose (p : Port) (bytes : List Byte) (extra : BitVec 3) (s : State) : Result :=
  .next (closeEvent p bytes extra s)

/-! ### Pin reset (R195) -/

/-- A port held in reset: its pin-reset values, the level of CS being the master's (R184, log 4). -/
def PortRec.held (r : PortRec) : PortRec := { PortRec.reset with link := { Link.reset with csLow := r.link.csLow } }

/-- The part held at its pin-reset values; the lines driven from outside keep their levels (R195, log 4). -/
def State.held (s : State) : State :=
  { State.reset with safeLow := s.safeLow, supplyLow := s.supplyLow, ports := s.ports.map PortRec.held,
                     freeCount := s.freeCount, pending := s.pending }

/-- RESET_ASSERT as a command (R195). -/
def execResetAssert (s : State) : Result := .next s.held

/-- The first pass of a port after the release: 1 to 500 µs, which the manual does not give (R62, log 3). -/
def firstPass (freeCount : Nat) (p : Port) : StageTime :=
  BitVec.ofNat 32 (1 + Config.passPhase (freeCount + p.val) % 500)

/-- The part at the release, before the safe state is looked at: pin-reset values, the pass phases drawn, the sag
latch following the line, and a START_UP scan on each chain (R62, R128, R148, R195). -/
def State.released (s : State) : State :=
  let s1 := (List.finRange 3).foldl
    (fun st p => st.modPort p fun r => { r with nextPass := firstPass s.freeCount p }) s.held
  { s1 with resetLow := false, sagLatch := s.supplyLow, freeCount := s.freeCount + 3,
            chains := s1.chains.map (Chain.startScan 0 s1.settings.frameTime .startUp s.safeLow) }

/-- RESET_RELEASE as a command: the release of RESET, with the entry into the safe state if SAFE is low (R133, R148).
A line that is not asserted cannot be released (log 16). -/
def execResetRelease (s : State) : Result :=
  .next (if !s.resetLow then s else if s.safeLow then s.released.enterSafe else s.released)

end Sys2Proof.Machine
end

