-- ==== Sys2Proof/Machine/Dispatch.lean ====
section
/-! DEFINITION. The dispatch of each command to its meaning: one arm for each constructor of Instr. -/

namespace Sys2Proof.Machine

def exec (i : Instr) (s : State) : Host.Outcome State Fault Refusal :=
  match i with
  | .nop p payload => Sys2Proof.Machine.execNop p payload s
  | .portReset p => Sys2Proof.Machine.execPortReset p s
  | .clkRun p mode => Sys2Proof.Machine.execClkRun p mode s
  | .clkStop p mode => Sys2Proof.Machine.execClkStop p mode s
  | .clkPlace p mode tick bar beat => Sys2Proof.Machine.execClkPlace p mode tick bar beat s
  | .clkRead p => Sys2Proof.Machine.execClkRead p s
  | .tempoSet p tempo => Sys2Proof.Machine.execTempoSet p tempo s
  | .tempoGlide p tempo duration => Sys2Proof.Machine.execTempoGlide p tempo duration s
  | .tempoCurve p slope curvature count => Sys2Proof.Machine.execTempoCurve p slope curvature count s
  | .meterSet p meter => Sys2Proof.Machine.execMeterSet p meter s
  | .cueSet p bar beat flags => Sys2Proof.Machine.execCueSet p bar beat flags s
  | .beatMode p mode => Sys2Proof.Machine.execBeatMode p mode s
  | .chanSetup p chan fields => Sys2Proof.Machine.execChanSetup p chan fields s
  | .chanCurve p chan knots => Sys2Proof.Machine.execChanCurve p chan knots s
  | .chanRelease p chan => Sys2Proof.Machine.execChanRelease p chan s
  | .chanRead p chan => Sys2Proof.Machine.execChanRead p chan s
  | .cellsWrite p start data => Sys2Proof.Machine.execCellsWrite p start data s
  | .cellsRead p start count => Sys2Proof.Machine.execCellsRead p start count s
  | .phrasePost p start mode value => Sys2Proof.Machine.execPhrasePost p start mode value s
  | .portStop p mode => Sys2Proof.Machine.execPortStop p mode s
  | .portFlush p => Sys2Proof.Machine.execPortFlush p s
  | .portGo p => Sys2Proof.Machine.execPortGo p s
  | .strike p chan velocity flags => Sys2Proof.Machine.execStrike p chan velocity flags s
  | .holdSet p chan action level => Sys2Proof.Machine.execHoldSet p chan action level s
  | .portRead p => Sys2Proof.Machine.execPortRead p s
  | .sysSetup p fields => Sys2Proof.Machine.execSysSetup p fields s
  | .sysRead p => Sys2Proof.Machine.execSysRead p s
  | .supplyAck p => Sys2Proof.Machine.execSupplyAck p s
  | .chainScan p chain => Sys2Proof.Machine.execChainScan p chain s
  | .chainRead p chain => Sys2Proof.Machine.execChainRead p chain s
  | .timingRead p => Sys2Proof.Machine.execTimingRead p s
  | .doneRead p => Sys2Proof.Machine.execDoneRead p s
  | .filterSet p filter mark => Sys2Proof.Machine.execFilterSet p filter mark s
  | .noteMask p selection => Sys2Proof.Machine.execNoteMask p selection s
  | .noteEdge p edges => Sys2Proof.Machine.execNoteEdge p edges s
  | .noteClear p selection => Sys2Proof.Machine.execNoteClear p selection s
  | .noteForce p selection => Sys2Proof.Machine.execNoteForce p selection s
  | .noteRead p => Sys2Proof.Machine.execNoteRead p s
  | .transactionOpen p => Sys2Proof.Machine.execTransactionOpen p s
  | .transactionClose p bytes extra => Sys2Proof.Machine.execTransactionClose p bytes extra s
  | .resetAssert => Sys2Proof.Machine.execResetAssert s
  | .resetRelease => Sys2Proof.Machine.execResetRelease s
  | .safeEntry => Sys2Proof.Machine.execSafeEntry s
  | .safeRelease => Sys2Proof.Machine.execSafeRelease s
  | .sagBegin => Sys2Proof.Machine.execSagBegin s
  | .sagEnd => Sys2Proof.Machine.execSagEnd s
  | .syncEdge => Sys2Proof.Machine.execSyncEdge s
  | .beatStep => Sys2Proof.Machine.execBeatStep s
  | .glideSnap => Sys2Proof.Machine.execGlideSnap s
  | .curveEnd => Sys2Proof.Machine.execCurveEnd s
  | .beatoutPulseEnd => Sys2Proof.Machine.execBeatoutPulseEnd s
  | .readerPass p => Sys2Proof.Machine.execReaderPass p s
  | .presentation => Sys2Proof.Machine.execPresentation s
  | .energisedUntilExpiry c => Sys2Proof.Machine.execEnergisedUntilExpiry c s
  | .coolingStep => Sys2Proof.Machine.execCoolingStep s
  | .frameEnd d => Sys2Proof.Machine.execFrameEnd d s
  | .reportReceive d word => Sys2Proof.Machine.execReportReceive d word s
  | .reportTake d => Sys2Proof.Machine.execReportTake d s
  | .deadline c => Sys2Proof.Machine.execDeadline c s
  | .scanEnd d => Sys2Proof.Machine.execScanEnd d s
  | .monitorWindowEnd => Sys2Proof.Machine.execMonitorWindowEnd s
  | .beatWindowEnd p => Sys2Proof.Machine.execBeatWindowEnd p s

end Sys2Proof.Machine
end

