-- ==== Sys2Proof/Machine/Time.lean ====
section
/-! DEFINITION. The passing of stage time: which time events are due, and the count of a microsecond (R1, log 1). -/

namespace Sys2Proof.Machine

/-- A command, listed when its time has come. -/
def dueIf (due : Bool) (i : Instr) : List Instr := if due then [i] else []

/-- The time events of one port that are due: its reader pass (R62) and the end of its BEAT window (R178). -/
def State.portEvents (s : State) (p : Port) : List Instr :=
  dueIf (atOrBefore (s.port p).nextPass s.now) (.readerPass p) ++
    dueIf (endReached s.now (s.port p).unit.beatWindow) (.beatWindowEnd p)

/-- The time events of one chain that are due: a frame's end (R138), the take of a report (R154), a scan's end (R147). -/
def State.chainEvents (s : State) (d : ChainId) : List Instr :=
  dueIf ((s.chain d).frameDone s.now s.settings.frameTime) (.frameEnd d) ++
    dueIf ((s.chain d).takeDue s.now) (.reportTake d) ++ dueIf ((s.chain d).scanDone s.now) (.scanEnd d)

/-- The time events of one channel that are due: its energised-until (R115) and its slot's deadline (R160). -/
def State.channelEvents (s : State) (c : ChanId) : List Instr :=
  dueIf (endReached s.now (strikeTill s.energised c)) (.energisedUntilExpiry c) ++
    dueIf (endReached s.now ((s.chan c).slot.map FlightSlot.deadline)) (.deadline c)

/-- The time events of the part that are due; none while RESET is asserted (R195). -/
def State.dueEvents (s : State) : List Instr :=
  if s.resetLow then []
  else
    dueIf (atOrBefore s.clock.nextBeat s.now) .beatStep ++ dueIf (endReached s.now s.clock.beatout) .beatoutPulseEnd ++
      dueIf (atOrBefore s.nextCooling s.now) .coolingStep ++ dueIf s.headDue .presentation ++
      dueIf (atOrBefore s.monitor.nextExpiry s.now) .monitorWindowEnd ++
      (List.finRange 3).flatMap s.portEvents ++ (List.finRange 4).flatMap s.chainEvents ++
      (List.finRange 128).flatMap s.channelEvents

/-- The previous take of a chain, kept while it can still hold back the next one (R154, log 10). -/
def Chain.forgetTake (now : StageTime) (ch : Chain) : Chain :=
  match ch.lastTake with
  | some t => if atOrBefore (plus t 50) now then { ch with lastTake := none } else ch
  | none => ch

/-- One microsecond of stage time (R1); stage time stands at 0 while RESET is asserted (R195). -/
def State.tick (s : State) : State :=
  if s.resetLow then s
  else { s with now := s.now + 1, chains := s.chains.map (Chain.forgetTake (s.now + 1)) }

end Sys2Proof.Machine
end

