-- ==== Sys2Proof/Machine/Step.lean ====
section
/-! DEFINITION. The step: the front command of the queue, or the passing of time while the queue is empty. -/

namespace Sys2Proof.Machine

/-- One of several due events, by its number. -/
def pickEvent (l : List Instr) (n : Nat) : Option Instr := l[n % l.length]?

/-- What the part does while no command waits (log 1): a due time event, or one microsecond of stage time. Where
several events are due, which comes first is a free value (log 2). -/
def idleStep (s : State) : Host.Outcome State Fault Refusal :=
  match s.dueEvents with
  | [] => .next s.tick
  | [i] => exec i s
  | i :: rest =>
    exec ((pickEvent (i :: rest) (Config.eventOrder s.freeCount)).getD i) { s with freeCount := s.freeCount + 1 }

/-- One step of the part: the command at the front of the queue acts on the state with the queue's rest. -/
def step (s : State) : Host.Outcome State Fault Refusal :=
  match s.pending with
  | c :: rest => exec c { s with pending := rest }
  | [] => idleStep s

/-- The state with the command a word spells put at the front of its queue; unchanged where it spells none. -/
def State.withFetchWord (s : State) (nbits w : Nat) : State :=
  match decodeTableWord nbits w with
  | some c => { s with pending := c :: s.pending }
  | none => s

end Sys2Proof.Machine
end

