-- ==== Sys2Proof/WellFormed.lean ====
section
/-! DEFINITION. Well-formed commands: the operands a request frame can carry. The widths of the operands are in
their types; what is left is the length of the two payloads that vary (R186, R188). -/

namespace Sys2Proof

/-- A request payload has at most 248 bytes (R186); CELLS_WRITE spends two of them on its start address (R42). -/
def Instr.wellFormed : Instr → Bool
  | .nop _ payload => payload.length ≤ 248
  | .cellsWrite _ _ data => data.length ≤ 246
  | _ => true

end Sys2Proof
end

