-- ==== Sys2Proof/Machine/Frames.lean ====
section
/-! DEFINITION. The request frame that spells each request: what a master clocks in for it (R186, R197). -/

namespace Sys2Proof.Machine

/-- The payload of CHAN_SETUP after its channel (R197). -/
def setupPayload (f : SetupFields) : List Byte :=
  [f.kind] ++ bytes16 f.pulseMin ++ bytes16 f.pulseMax ++ bytes16 f.recovery ++ bytes16 f.heatLimit ++
    [f.coolingRate, f.adaptShift, f.missLimit]

/-- A knot of the CHAN_CURVE payload (R197). -/
def knotPayload (k : KnotFields) : List Byte := bytes16 k.pulse ++ bytes16 k.flight

/-- The payload of SYS_SETUP (R197). -/
def settingsPayload (f : SettingsFields) : List Byte :=
  [f.horizon] ++ bytes16 f.tolerance ++ bytes16 f.mergeWindow ++ [f.reportWindow, f.supplyLimit, f.accentBoost] ++
    bytes16 f.outlierLimit ++ bytes16 f.highMark ++ [f.bitRate, f.gapBits, f.monitorWindow]

/-- The port, kind byte and payload of a request; none for a command that is no request (R197). -/
def requestFields : Instr → Option (Port × Byte × List Byte)
  | .nop p payload => some (p, 0x00, payload)
  | .portReset p => some (p, 0x01, [])
  | .clkRun p mode => some (p, 0x10, [mode])
  | .clkStop p mode => some (p, 0x11, [mode])
  | .clkPlace p mode tick bar beat => some (p, 0x12, [mode] ++ bytes32 tick ++ bytes16 bar ++ [beat])
  | .clkRead p => some (p, 0x13, [])
  | .tempoSet p tempo => some (p, 0x14, bytes16 tempo)
  | .tempoGlide p tempo duration => some (p, 0x15, bytes16 tempo ++ bytes16 duration)
  | .tempoCurve p slope curvature count => some (p, 0x16, bytes32 slope ++ bytes32 curvature ++ bytes32 count)
  | .meterSet p meter => some (p, 0x17, [meter])
  | .cueSet p bar beat flags => some (p, 0x18, bytes16 bar ++ [beat, flags])
  | .beatMode p mode => some (p, 0x19, [mode])
  | .chanSetup p chan fields => some (p, 0x20, chan :: setupPayload fields)
  | .chanCurve p chan knots => some (p, 0x21, chan :: knots.toList.flatMap knotPayload)
  | .chanRelease p chan => some (p, 0x22, [chan])
  | .chanRead p chan => some (p, 0x23, [chan])
  | .cellsWrite p start data => some (p, 0x28, bytes16 start ++ data)
  | .cellsRead p start count => some (p, 0x29, bytes16 start ++ [count])
  | .phrasePost p start mode value => some (p, 0x30, bytes16 start ++ [mode] ++ bytes32 value)
  | .portStop p mode => some (p, 0x31, [mode])
  | .portFlush p => some (p, 0x32, [])
  | .portGo p => some (p, 0x33, [])
  | .strike p chan velocity flags => some (p, 0x34, [chan, velocity, flags])
  | .holdSet p chan action level => some (p, 0x35, [chan, action, level])
  | .portRead p => some (p, 0x36, [])
  | .sysSetup p fields => some (p, 0x40, settingsPayload fields)
  | .sysRead p => some (p, 0x41, [])
  | .supplyAck p => some (p, 0x42, [])
  | .chainScan p chain => some (p, 0x48, [chain])
  | .chainRead p chain => some (p, 0x49, [chain])
  | .timingRead p => some (p, 0x4A, [])
  | .doneRead p => some (p, 0x50, [])
  | .filterSet p filter mark => some (p, 0x51, [filter, mark])
  | .noteMask p selection => some (p, 0x52, bytes16 selection)
  | .noteEdge p edges => some (p, 0x53, [edges])
  | .noteClear p selection => some (p, 0x54, bytes16 selection)
  | .noteForce p selection => some (p, 0x55, bytes16 selection)
  | .noteRead p => some (p, 0x56, [])
  | .transactionOpen _ => none
  | .transactionClose _ _ _ => none
  | .resetAssert => none
  | .resetRelease => none
  | .safeEntry => none
  | .safeRelease => none
  | .sagBegin => none
  | .sagEnd => none
  | .syncEdge => none
  | .beatStep => none
  | .glideSnap => none
  | .curveEnd => none
  | .beatoutPulseEnd => none
  | .readerPass _ => none
  | .presentation => none
  | .energisedUntilExpiry _ => none
  | .coolingStep => none
  | .frameEnd _ => none
  | .reportReceive _ _ => none
  | .reportTake _ => none
  | .deadline _ => none
  | .scanEnd _ => none
  | .monitorWindowEnd => none
  | .beatWindowEnd _ => none

/-- The kind bytes that name a request (R197). -/
def requestKinds : List Byte :=
  [0x00, 0x01, 0x10, 0x11, 0x12, 0x13, 0x14, 0x15, 0x16, 0x17, 0x18, 0x19, 0x20, 0x21, 0x22, 0x23, 0x28, 0x29, 0x30,
   0x31, 0x32, 0x33, 0x34, 0x35, 0x36, 0x40, 0x41, 0x42, 0x48, 0x49, 0x4A, 0x50, 0x51, 0x52, 0x53, 0x54, 0x55, 0x56]

/-- The port and the frame of a request (R186). -/
def requestFrame (i : Instr) : Option (Port × List Byte) :=
  (requestFields i).map fun x => (x.1, frameOf x.2.1 x.2.2)

end Sys2Proof.Machine
end

