-- ==== Sys2Proof/Safety.lean ====
section
/-! DEFINITION. What the manual says of every state of the part: the invariants that statements speak of. -/

namespace Sys2Proof.Machine

/-- The part takes requests: RESET is not asserted and the start-up interval is over (R187, R195, R196). -/
def State.Taking (s : State) : Prop := s.resetLow = false ∧ s.inStartUp = false

/-- A rate word lies within W_min and W_max (R2). -/
def rateInRange (w : BitVec 32) : Prop := wMin ≤ w.toNat ∧ w.toNat ≤ wMax

/-- The target of a held glide, if there is one, is a rate word within the limits (R2, R5). -/
def Ramp.targetInRange : Ramp → Prop
  | .glide target _ _ => rateInRange target
  | _ => True

/-- A meter is 1 to 16 beats per bar (R9). -/
def meterInRange (m : Nat) : Prop := 1 ≤ m ∧ m ≤ 16

/-- The rate word and a glide's target lie within the limits (R2). -/
def State.RateKept (s : State) : Prop := rateInRange s.clock.rate ∧ s.clock.ramp.targetInRange

/-- The meter and a pending meter are 1 to 16, and beat-in-bar stays below the meter (R9). -/
def State.MeterKept (s : State) : Prop :=
  meterInRange s.clock.meter ∧ (∀ m, s.clock.pendingMeter = some m → meterInRange m) ∧ s.clock.beat < s.clock.meter

/-- Each region is in canonical form and lists no byte outside its 2048 cells of 8 bytes (R41). -/
def State.MemoryKept (s : State) : Prop :=
  ∀ p : Port, Memory.wf (s.port p).mem = true ∧ ∀ x ∈ (s.port p).mem, x.1 < 16384

/-- The lists of a port stay within their capacities (R56, R57, R172). -/
def PortRec.Fits (r : PortRec) : Prop :=
  r.reader.queue.length ≤ 4 ∧ r.reader.opened.length ≤ 8 ∧ r.unit.records.length ≤ 64 ∧ r.unit.lost ≤ 65535

/-- The queues of a chain stay within their capacities (R136). -/
def Chain.Fits (ch : Chain) : Prop := ch.queue.length ≤ 16 ∧ ch.reports.length ≤ 16

/-- Every list of the part stays within its capacity (R12, R56, R57, R98, R136, R172). -/
def State.CapacityKept (s : State) : Prop :=
  s.timeline.length ≤ 256 ∧ s.clock.cues.length ≤ 4 ∧ (∀ p, (s.port p).Fits) ∧ ∀ d, (s.chain d).Fits

/-- A latch is set only while its source is enabled (R176). -/
def State.LatchesKept (s : State) : Prop :=
  ∀ p : Port, ∀ i, (s.port p).unit.latches.getLsbD i = true → (s.port p).unit.enables.getLsbD i = true

/-- The energised count never exceeds the supply limit (R114). -/
def State.SupplyKept (s : State) : Prop := s.energised.length ≤ s.settings.supplyLimit

/-- Every channel's heat lies within its heat limit (R31). -/
def State.HeatKept (s : State) : Prop := ∀ c, (s.chan c).heat ≤ (s.chan c).scalars.heatLimit

/-- Every flight knot lies within 0 and 6000 pu (R30). -/
def State.KnotsKept (s : State) : Prop := ∀ c, ∀ k : Fin 8, (s.chan c).knots[k].flight ≤ 6000

/-- The fault cause is present while a channel is FAULTED and absent in every other state (R23). -/
def State.CausesKept (s : State) : Prop := ∀ c, (s.chan c).presence = .faulted ↔ (s.chan c).cause.isSome = true

/-- A channel with an occupied flight slot is a STRIKE channel (R34, R154). -/
def State.SlotsKept (s : State) : Prop :=
  ∀ c, (s.chan c).slot.isSome = true → (s.chan c).kind = some .strike

/-- No channel of a chain that is being scanned has a LIFTED hold (R150). -/
def State.ScansKept (s : State) : Prop := ∀ c, s.scanning (chainOf c) = true → (s.chan c).hold = none

/-- While SAFE is asserted the timeline is empty, every hold is DOWN, and no frame other than SAFE_ALL waits on a
chain (R132). Nothing is said while RESET is asserted. -/
def State.SafeKept (s : State) : Prop :=
  s.resetLow = false → s.safeLow = true →
    s.timeline = [] ∧ (∀ c, (s.chan c).hold = none) ∧ ∀ d, ∀ f ∈ (s.chain d).queue, f = DriveFrame.safeAll

/-- Two entries are not STRIKE entries of one channel with targets within the merge window of each other (R103). -/
def apart (window : Nat) (x y : Entry) : Prop :=
  ∀ c fig, x.action = .strike c fig → isPartner window c x.target y = false

/-- No two unsent STRIKE entries for one channel have targets within the merge window of each other (R103). -/
def State.StrokesKept (s : State) : Prop := s.timeline.Pairwise (apart s.settings.mergeWindow)

/-- Busy-until is the end of the frame in transmission plus Tf for each frame in the queue, and is absent, with an
empty queue, while none is in transmission (R138). -/
def Chain.Timed (tf : Nat) (ch : Chain) : Prop :=
  match ch.sending with
  | none => ch.queue = [] ∧ ch.busyUntil = none
  | some (_, start) => ch.busyUntil = some (plus start (tf * (1 + ch.queue.length)))

/-- Every chain's busy-until is timed so (R138). -/
def State.ChainsKept (s : State) : Prop := ∀ d, (s.chain d).Timed s.settings.frameTime

/-- Every entry of the timeline holds 1 to 4 owner references (R97), and every flight slot at most 4 (R34). -/
def State.OwnersKept (s : State) : Prop :=
  (∀ e ∈ s.timeline, 1 ≤ e.owners.length ∧ e.owners.length ≤ 4) ∧
    ∀ c slot, (s.chan c).slot = some slot → slot.owners.length ≤ 4

/-- The offset of a timed cell; the other cells have none (R44). -/
def Cell.offset : Cell → Option Nat
  | .stroke _ _ _ _ offset => some offset
  | .hold _ _ _ _ offset => some offset
  | .setLevel _ offset => some offset
  | .setTempo _ _ offset => some offset
  | .rest _ offset => some offset
  | .endCell => none
  | .head _ => none
  | .link _ => none
  | .undefined => none

/-- From `s`, the reader of port `p` reads on over `n` cells, and the cell after them stops it in `t` (R62). -/
def State.ReadsTo (p : Port) : Nat → State → State → Prop
  | 0, s, t => s.readOne p = .stop t
  | n + 1, s, t => ∃ m, s.readOne p = .more m ∧ State.ReadsTo p n m t

/-- The cell at the reader address of record `o` is armed as a HOLD or MARK entry: LATE beyond the late tolerance, and
otherwise an entry in the timeline, or left unread for want of room (R69, R70, R87). `past` is the state past the cell,
and `noted` that state with one more outcome to come. -/
def State.ArmsCell (s : State) (p : Port) (o : OpenRec) (past noted : State) (ref : OwnerRef) (c : Option ChanId)
    (action : Action) (target ideal : StageTime) : Prop :=
  (later ideal s.now = false → s.settings.tolerance < since ideal s.now →
    s.readOne p = (noted.deliver ref (OutcomeData.plain .late c)).unlessHeld p) ∧
  ∀ send, (later ideal s.now = true ∧ send = ideal ∨
      later ideal s.now = false ∧ since ideal s.now ≤ s.settings.tolerance ∧ send = s.now) →
    (admits s.timeline p = true → s.readOne p = .more ((past.withTimeline (placeEntry
      { action := action, target := target, fire := target, ideal := ideal, send := send, owners := [ref],
        merged := false, retimed := false, immediate := false } s.timeline)).modReader p
          (Reader.modRecord o.serial fun x => { x with outstanding := x.outstanding + 1 }))) ∧
    (admits s.timeline p = false → s.readOne p = .stop s)

/-- The STROKE cell at the reader address of record `o` is offered to the timeline with figures `fig` (R68, R103): inserted
or, for want of room, left unread where it has no partner, and otherwise merged into its partner or absorbed by it (R70,
R104, R105). `past` is the state past the cell, and `noted` that state with one more outcome to come. -/
def State.ArmsStroke (s : State) (p : Port) (o : OpenRec) (past noted : State) (ref : OwnerRef) (c : ChanId)
    (fig : Figures) (target fire ideal send : StageTime) : Prop :=
  ((∀ e ∈ s.timeline, ∀ f, e.action = .strike c f → s.settings.mergeWindow < distance e.target target) →
    (admits s.timeline p = true → s.readOne p = .more ((past.withTimeline (placeEntry
      { action := .strike c fig, target := target, fire := fire, ideal := ideal, send := send, owners := [ref],
        merged := false, retimed := false, immediate := false } s.timeline)).modReader p
          (Reader.modRecord o.serial fun x => { x with outstanding := x.outstanding + 1 }))) ∧
    (admits s.timeline p = false → s.readOne p = .stop s)) ∧
  ∀ pre partner post f, s.timeline = pre ++ partner :: post → partner.action = .strike c f →
    distance partner.target target ≤ s.settings.mergeWindow →
    (∀ e ∈ pre, ∀ g, e.action = .strike c g → s.settings.mergeWindow < distance e.target target) →
    (partner.owners.length < 4 → fig.vEff ≤ f.vEff → s.readOne p = .more ((past.withTimeline
      (pre ++ { partner with owners := partner.owners ++ [ref], merged := true } :: post)).modReader p
        (Reader.modRecord o.serial fun x => { x with outstanding := x.outstanding + 1 }))) ∧
    (partner.owners.length < 4 → f.vEff < fig.vEff → ∀ fire' ideal' : StageTime,
      fire' = minus partner.target (fig.flight * 10) → ideal' = minus fire' s.settings.frameTime →
      s.readOne p = .more ((past.withTimeline (placeEntry
        { partner with action := .strike c fig, fire := fire', ideal := ideal',
                       send := if later ideal' s.now then ideal' else s.now,
                       owners := partner.owners ++ [ref], merged := true } (pre ++ post))).modReader p
          (Reader.modRecord o.serial fun x => { x with outstanding := x.outstanding + 1 }))) ∧
    (4 ≤ partner.owners.length → s.readOne p =
      (noted.deliver ref { OutcomeData.plain .absorbed (some c) with vEff := fig.vEff, pulse := fig.pulse }).unlessHeld p)

/-- Every channel but `c` cools from `s` to `t`, and its passed ready-after becomes absent (R129 steps 1 and 4). -/
def State.OthersCool (s : State) (c : ChanId) (t : State) : Prop :=
  ∀ e, e ≠ c → t.chan e = { s.chan e with
    heat := (s.chan e).heat - (if (s.chan e).heat = 0 then 0
      else max 1 ((s.chan e).heat * (s.chan e).scalars.coolingRate / 256)),
    readyAfter := (s.chan e).readyAfter.filter fun r => !atOrBefore r s.now }

/-- A chain's head report, placed at `placed`, is to be taken at `time`: 50 µs after the later of its placing and the
previous take (R154). -/
def Chain.TakesAt (ch : Chain) (placed time : StageTime) : Prop :=
  (ch.lastTake = none ∧ time = plus placed 50) ∨
    ∃ before, ch.lastTake = some before ∧ time = plus (laterOf placed before) 50

/-- The number of records that are READING. -/
def Reader.readingCount (rd : Reader) : Nat := (rd.opened.filter fun o => o.reading == .reading).length

/-- A port has at most one current phrase: at most one open record is READING (R57, R60). -/
def State.ReadersKept (s : State) : Prop := ∀ p, (s.port p).reader.readingCount ≤ 1

end Sys2Proof.Machine
end

