-- ==== Sys2Proof/Certificates/Slice0/Obligations.lean ====
section
/-! DEFINITION. The statements for the provers. -/

open Sys2Proof Sys2Proof.Machine

/-! ### The step and the pin reset -/

/-- A step takes the command at the front of the queue and runs it on the state with the queue's rest. -/
def Obligations.StepRunsFrontCommand : Prop :=
  ∀ (c : Instr) (rest : List Instr) (s : State),
    step { s with pending := c :: rest } = exec c { s with pending := rest }

/-- With no command waiting, a step takes the one time event that is due, or counts one microsecond of stage time; while
RESET is asserted nothing happens. The model's choice (log 1) for the manual's running stage time. -/
def Obligations.IdlePartLetsTimePass : Prop :=
  ∀ s : State, s.pending = [] →
    (s.resetLow = true → step s = .next s) ∧
    (s.resetLow = false → s.dueEvents = [] →
      ∃ t, step s = .next t ∧ t.now = s.now + 1 ∧ t = { s with now := t.now, chains := t.chains } ∧
        ∀ d, t.chain d = { s.chain d with lastTake := (t.chain d).lastTake }) ∧
    (s.resetLow = false → ∀ i, s.dueEvents = [i] → step s = exec i s)

/-- RESET_ASSERT puts every block at its pin-reset values. What the spec gives no value or rests on no rule is the
model's: the lines driven from outside keep their levels, and the receive buffer, SDO and the last word sent are empty
(log 4), the stored pass timer is 500 (log 3), and the counter of free values stays (log 18). -/
def Obligations.ResetAssertHoldsPinResetValues : Prop :=
  ∀ s : State, ∃ t, exec .resetAssert s = .next t ∧
    t = { State.reset with safeLow := s.safeLow, supplyLow := s.supplyLow, ports := t.ports,
                           freeCount := s.freeCount, pending := s.pending } ∧
    ∀ p, t.port p =
      { PortRec.reset with link := { Link.reset with csLow := (s.port p).link.csLow } }

/-- RESET_RELEASE: stage time 0, the sag latch following the line, every other block at its pin-reset values, and on
every chain a START_UP scan with its PINGs, or with SAFE_ALL alone while SAFE is low. The first pass comes 1 to 500 µs
later. Which boards a scan listens for is the model's record (log 22). The empty receive buffer, SDO and last word sent
are the model's values (log 4). -/
def Obligations.ResetReleaseStartsThePart : Prop :=
  ∀ s : State, s.resetLow = true → ∃ t, exec .resetRelease s = .next t ∧
    t.resetLow = false ∧ t.now = 0 ∧ t.sagLatch = s.supplyLow ∧ t.safeLow = s.safeLow ∧ t.supplyLow = s.supplyLow ∧
    t.clock = Clock.reset ∧ t.timeline = [] ∧ t.energised = [] ∧ t.settings = Settings.reset ∧
    t.monitor = Monitor.reset ∧ t.nextCooling = 10000 ∧ (∀ c, t.chan c = Channel.reset) ∧
    (∀ p, t.port p = { PortRec.reset with link := { Link.reset with csLow := (s.port p).link.csLow },
                                          nextPass := (t.port p).nextPass } ∧
      1 ≤ (t.port p).nextPass.toNat ∧ (t.port p).nextPass.toNat ≤ 500) ∧
    ∀ d,
      (s.safeLow = false → t.chain d = { Chain.reset with
        sending := some (.ping 0, 0), queue := [.ping 1, .ping 2, .ping 3], busyUntil := some 80,
        scan := some { start := 0, kind := .startUp, found := Vector.replicate 4 none,
                       listens := Vector.replicate 4 true } }) ∧
      (s.safeLow = true → t.chain d = { Chain.reset with
        sending := some (.safeAll, 0), busyUntil := some 20,
        scan := some { start := 0, kind := .startUp, found := Vector.replicate 4 none,
                       listens := Vector.replicate 4 false } })

/-! ### Score ports -/

/-- A fall of CS opens the link with an emptied receive buffer, and a close with no whole byte is disregarded: the reply
buffer keeps its reply and nothing outside the link changes. -/
def Obligations.TransactionOpensAndClosesEmpty : Prop :=
  ∀ (p : Port) (s : State), s.resetLow = false →
    ((s.port p).link.csLow = false →
      exec (.transactionOpen p) s = .next (s.modLink p fun k =>
        { k with isOpen := true, csLow := true, stored := [], total := 0, partialByte := false, sdo := [],
                 sdoBits := [] })) ∧
    ∀ extra, ∃ t, exec (.transactionClose p [] extra) s = .next t ∧
      ((s.port p).link.isOpen = true → (t.port p).link.isOpen = false) ∧
      (t.port p).link.csLow = false ∧ (t.port p).link.reply = (s.port p).link.reply ∧
      t = s.modLink p fun _ => (t.port p).link

/-- Bytes that are not exactly one frame with a good check give BAD_FRAME and reach no block; a frame whose kind names
no request gives UNKNOWN and reaches none either. A good frame of a request whose payload has a length that no payload
of its kind has is refused with RANGE. -/
def Obligations.BrokenFramesReachNoBlock : Prop :=
  ∀ (p : Port) (bytes : List Byte) (extra : BitVec 3) (s : State),
    s.resetLow = false → (s.port p).link.isOpen = true → bytes ≠ [] →
    ((¬ ∃ kind payload, extra = 0 ∧ payload.length ≤ 248 ∧ bytes = frameOf kind payload) →
      exec (.transactionClose p bytes extra) s =
        .next ((s.modLink p (Link.closed bytes extra)).reply p (Reply.bare .badFrame))) ∧
    (∀ kind payload, extra = 0 → payload.length ≤ 248 → bytes = frameOf kind payload → kind ∉ requestKinds →
      exec (.transactionClose p bytes extra) s =
        .next ((s.modLink p (Link.closed bytes extra)).reply p (Reply.bare .unknown))) ∧
    ∀ kind payload, extra = 0 → payload.length ≤ 248 → bytes = frameOf kind payload → kind ∈ requestKinds →
      s.inStartUp = false →
      (∀ i q other, requestFields i = some (q, kind, other) → other.length ≠ payload.length) →
      exec (.transactionClose p bytes extra) s =
        .next ((s.modLink p (Link.closed bytes extra)).reply p (Reply.bare .range))

/-- For every well-formed request: a transaction that carries exactly the frame that spells it takes it, with every
operand as it was spelt, on the state whose link has closed. -/
def Obligations.FramesDecodeToTheirRequests : Prop :=
  ∀ (i : Instr) (p : Port) (bytes : List Byte) (s : State),
    i.wellFormed = true → requestFrame i = some (p, bytes) → s.resetLow = false → (s.port p).link.isOpen = true →
    exec (.transactionClose p bytes 0) s = exec i (s.modLink p (Link.closed bytes 0))

/-- Each byte clocked in is matched by the next byte of the reply that waited, and by 00 once its bytes are exhausted;
the bytes are those of a frame with the reply's code, length, payload and check. -/
def Obligations.RepliesShiftOutDuringTheTransaction : Prop :=
  ∀ (p : Port) (bytes : List Byte) (extra : BitVec 3) (s : State),
    s.resetLow = false → (s.port p).link.isOpen = true →
    ∃ t, exec (.transactionClose p bytes extra) s = .next t ∧ (t.port p).link.sdo.length = bytes.length ∧
      ((s.port p).link.reply = none → ∀ i, i < bytes.length → (t.port p).link.sdo[i]? = some 0) ∧
      ∀ r, (s.port p).link.reply = some r → ∀ i, i < bytes.length →
        (t.port p).link.sdo[i]? = some ((r.frame).getD i 0)

/-- NOP replies OK in every state of the part but while RESET is asserted, and during the start-up interval every other
request is refused with NOT_READY and changes no state but the reply buffer. -/
def Obligations.StartUpAnswersOnlyNop : Prop :=
  (∀ (p : Port) (payload : List Byte) (s : State), s.resetLow = false →
    exec (.nop p payload) s = .next (s.reply p (Reply.bare .ok))) ∧
  ∀ (i : Instr) (p : Port) (kind : Byte) (payload : List Byte) (s : State),
    requestFields i = some (p, kind, payload) → kind ≠ 0 → s.resetLow = false → s.inStartUp = true →
    exec i s = .next (s.reply p (Reply.bare .notReady))

/-- CLK_PLACE, BEAT_MODE, PHRASE_POST, PORT_STOP, STRIKE, HOLD_SET, FILTER_SET, CHAN_SETUP and the channel and chain
reads refuse fields outside their ranges with RANGE. Within them, CLK_PLACE is refused with CLOCK_SHARED while a port
holds a beat phrase, and CHAN_SETUP with BUSY on a busy channel and with RANGE for a HOLD its board cannot carry; while
SAFE is asserted, posts, immediate requests and PORT_GO are refused with SAFE. Nothing but the reply changes. -/
def Obligations.RequestsAreRefused : Prop :=
  ∀ (p : Port) (s : State), s.Taking →
    (∀ (mode : Byte) tick bar (beat : Byte),
      ((1 < mode.toNat ∨ s.clock.meter ≤ beat.toNat) →
        exec (.clkPlace p mode tick bar beat) s = .next (s.reply p (Reply.bare .range))) ∧
      (mode.toNat ≤ 1 → beat.toNat < s.clock.meter →
        (∃ q, (∃ o, (s.port q).reader.current = some o ∧ o.clock = .beat) ∨
          ∃ x ∈ (s.port q).reader.queue, x.head.clock = .beat) →
        exec (.clkPlace p mode tick bar beat) s = .next (s.reply p (Reply.bare .clockShared)))) ∧
    (∀ mode : Byte, 2 < mode.toNat → exec (.beatMode p mode) s = .next (s.reply p (Reply.bare .range)) ∧
      exec (.portStop p mode) s = .next (s.reply p (Reply.bare .range))) ∧
    (∀ c : Byte, 127 < c.toNat → ∀ f,
      exec (.chanSetup p c f) s = .next (s.reply p (Reply.bare .range)) ∧
      exec (.chanRead p c) s = .next (s.reply p (Reply.bare .range))) ∧
    (∀ (c : ChanId) (f : SetupFields),
      ((f.kind ≠ 1 ∧ f.kind ≠ 2 ∨ f.pulseMin.toNat < 5 ∨ f.pulseMax.toNat < f.pulseMin.toNat ∨
          2000 < f.pulseMax.toNat ∨ f.recovery.toNat < 5 ∨ 500 < f.recovery.toNat ∨ f.heatLimit.toNat < 100 ∨
          f.coolingRate = 0 ∨ 4 < f.adaptShift.toNat ∨ f.missLimit = 0 ∨ 15 < f.missLimit.toNat) →
        exec (.chanSetup p (BitVec.ofNat 8 c.val) f) s = .next (s.reply p (Reply.bare .range))) ∧
      ((f.kind = 1 ∨ f.kind = 2) → 5 ≤ f.pulseMin.toNat → f.pulseMin.toNat ≤ f.pulseMax.toNat →
        f.pulseMax.toNat ≤ 2000 → 5 ≤ f.recovery.toNat → f.recovery.toNat ≤ 500 → 100 ≤ f.heatLimit.toNat →
        1 ≤ f.coolingRate.toNat → f.adaptShift.toNat ≤ 4 → 1 ≤ f.missLimit.toNat → f.missLimit.toNat ≤ 15 →
        (((∃ e ∈ s.timeline, e.action.chan = some c) ∨ (s.chan c).slot ≠ none ∨ (s.chan c).hold ≠ none) →
          exec (.chanSetup p (BitVec.ofNat 8 c.val) f) s = .next (s.reply p (Reply.bare .busy))) ∧
        ∀ mask, (∀ e ∈ s.timeline, e.action.chan ≠ some c) → (s.chan c).slot = none → (s.chan c).hold = none →
          f.kind = 2 → s.boardEntry c = some mask → mask.getLsbD (c.val % 8) = false →
          exec (.chanSetup p (BitVec.ofNat 8 c.val) f) s = .next (s.reply p (Reply.bare .range)))) ∧
    (∀ (start : BitVec 16) (mode : Byte) (value : BitVec 32),
      (2047 < start.toNat ∨ 4 < mode.toNat ∨ (mode = 2 ∧ 600000000 < (value - s.now).toNat) ∨
        (mode = 3 ∧ 600000 < value.toNat)) →
      exec (.phrasePost p start mode value) s = .next (s.reply p (Reply.bare .range))) ∧
    (∀ c v f : Byte, (127 < c.toNat ∨ v = 0 ∨ 127 < v.toNat ∨ 1 < f.toNat) →
      exec (.strike p c v f) s = .next (s.reply p (Reply.bare .range))) ∧
    (∀ c a l : Byte, (127 < c.toNat ∨ 1 < a.toNat ∨ (a = 0 ∧ l = 0)) →
      exec (.holdSet p c a l) s = .next (s.reply p (Reply.bare .range))) ∧
    (∀ d : Byte, 3 < d.toNat → exec (.chainRead p d) s = .next (s.reply p (Reply.bare .range))) ∧
    (∀ f m : Byte, (1 < f.toNat ∨ m = 0 ∨ 64 < m.toNat) →
      exec (.filterSet p f m) s = .next (s.reply p (Reply.bare .range))) ∧
    (s.safeLow = true →
      exec (.portGo p) s = .next (s.reply p (Reply.bare .safe)) ∧
      (∀ c v f : Byte, c.toNat ≤ 127 → 1 ≤ v.toNat → v.toNat ≤ 127 → f.toNat ≤ 1 →
        exec (.strike p c v f) s = .next (s.reply p (Reply.bare .safe))) ∧
      (∀ c a l : Byte, c.toNat ≤ 127 → a.toNat ≤ 1 → ¬(a = 0 ∧ l = 0) →
        exec (.holdSet p c a l) s = .next (s.reply p (Reply.bare .safe))) ∧
      ∀ (start : BitVec 16) (mode : Byte) (value : BitVec 32), start.toNat ≤ 2047 → mode.toNat ≤ 4 →
        (mode = 2 → (value - s.now).toNat ≤ 600000000) → (mode = 3 → value.toNat ≤ 600000) →
        exec (.phrasePost p start mode value) s = .next (s.reply p (Reply.bare .safe)))

/-- PORT_RESET brings its port's reader, notice unit and clock settings to their reset values and takes its references
out of the timeline, the flight slots, the hold records and the cue list, with no outcome; the region stays, and what
belongs to the other ports and the shared blocks stays, but that TIMELINE_HIGH is judged again in each port. -/
def Obligations.PortResetForgetsOnePort : Prop :=
  ∀ (p : Port) (s : State), s.Taking → ∃ t, exec (.portReset p) s = .next t ∧
    (t.port p).unit = NoticeUnit.reset ∧ (t.port p).reader = Reader.reset ∧ (t.port p).cue = CueMatch.reset ∧
    (t.port p).beatMode = .off ∧ (t.port p).mem = (s.port p).mem ∧ (t.port p).nextPass = (s.port p).nextPass ∧
    (t.port p).link = { (s.port p).link with reply := some (Reply.bare .ok) } ∧
    (∀ q, q ≠ p → t.port q = { s.port q with
      unit := (s.port q).unit.judge s.now .timelineHigh (decide (s.settings.highMark ≤ s.timeline.length))
        (decide (s.settings.highMark ≤ t.timeline.length)) }) ∧
    (∀ e ∈ t.timeline, e.owners ≠ [] ∧ ∀ o ∈ e.owners, o.port ≠ p) ∧
    t.timeline = s.timeline.filterMap (fun e =>
      if (e.owners.filter fun o => o.port != p) = [] then none
      else some { e with owners := e.owners.filter fun o => o.port != p }) ∧
    (∀ c, t.chan c = { s.chan c with slot := (t.chan c).slot, hold := (t.chan c).hold } ∧
      (t.chan c).slot = (s.chan c).slot.map (fun f => { f with owners := f.owners.filter fun o => o.port != p }) ∧
      (t.chan c).hold = (s.chan c).hold.map (fun l => { l with port := if l.port = some p then none else l.port })) ∧
    t.clock = { s.clock with cues := s.clock.cues.filter fun x => x.owner.port != p } ∧
    t = { s with ports := t.ports, timeline := t.timeline, channels := t.channels, clock := t.clock }

/-! ### The beat clock -/

/-- CLK_RUN and CLK_STOP: mode NOW sets the running state, mode AT_SYNC makes the action the pending sync action, and
any other mode is refused with RANGE. -/
def Obligations.RunAndStopRequests : Prop :=
  ∀ (p : Port) (s : State), s.Taking →
    exec (.clkRun p 0) s = .next ((s.modClock fun c => { c with running := true }).reply p (Reply.bare .ok)) ∧
    exec (.clkStop p 0) s = .next ((s.modClock fun c => { c with running := false }).reply p (Reply.bare .ok)) ∧
    exec (.clkRun p 1) s =
      .next ((s.modClock fun c => { c with sync := some ⟨.run, p⟩ }).reply p (Reply.bare .ok)) ∧
    exec (.clkStop p 1) s =
      .next ((s.modClock fun c => { c with sync := some ⟨.stop, p⟩ }).reply p (Reply.bare .ok)) ∧
    ∀ mode : Byte, 1 < mode.toNat → exec (.clkRun p mode) s = .next (s.reply p (Reply.bare .range)) ∧
      exec (.clkStop p mode) s = .next (s.reply p (Reply.bare .range))

/-- CLK_PLACE with a beat below the meter while no port holds a beat phrase: mode NOW sets position, bar and beat and
removes every cue, each giving CUE_DROPPED to its owner in list order, and mode AT_SYNC becomes the pending sync action.
-/
def Obligations.PlaceRequests : Prop :=
  ∀ (p : Port) (tick : Tick) (bar : BitVec 16) (beat : Byte) (s : State),
    s.Taking → beat.toNat < s.clock.meter → s.clockShared = false →
    (∃ t, exec (.clkPlace p 0 tick bar beat) s = .next t ∧
      t.clock = { s.clock with pos := tick ++ (0 : BitVec 32), bar := bar, beat := beat.toNat, cues := [] } ∧
      t = { s with clock := t.clock, ports := t.ports } ∧
      t.ports = ((s.clock.cues.foldl (fun st x => st.deliver x.owner (OutcomeData.plain .cueDropped none)) s).reply p
        (Reply.bare .ok)).ports ∧
      (t.port p).link = { (s.port p).link with reply := some (Reply.bare .ok) } ∧
      (s.clock.cues = [] → ∀ q, t.port q = { s.port q with link := (t.port q).link }) ∧
      ∀ q, (t.port q).mem = (s.port q).mem ∧ (t.port q).reader.queue = (s.port q).reader.queue) ∧
    exec (.clkPlace p 1 tick bar beat) s =
      .next ((s.modClock fun c => { c with sync := some ⟨.place tick bar beat.toNat, p⟩ }).reply p (Reply.bare .ok))

/-- A falling edge of SYNC applies the pending action and makes it absent; with none pending it changes nothing, and a
PLACE that fails its checks again sets the place-refused flag. A PLACE that stands removes every cue, each giving
CUE_DROPPED to its owner in list order. -/
def Obligations.SyncEdgeAppliesThePendingAction : Prop :=
  ∀ s : State, s.resetLow = false →
    (s.clock.sync = none → exec .syncEdge s = .next s) ∧
    (∀ p, s.clock.sync = some ⟨.run, p⟩ →
      exec .syncEdge s = .next (s.modClock fun c => { c with sync := none, running := true })) ∧
    (∀ p, s.clock.sync = some ⟨.stop, p⟩ →
      exec .syncEdge s = .next (s.modClock fun c => { c with sync := none, running := false })) ∧
    ∀ p tick bar beat, s.clock.sync = some ⟨.place tick bar beat, p⟩ →
      ((s.clock.meter ≤ beat ∨ s.clockShared = true) →
        exec .syncEdge s = .next (s.modClock fun c => { c with sync := none, placeRefused := true })) ∧
      (beat < s.clock.meter → s.clockShared = false → ∃ t, exec .syncEdge s = .next t ∧
        t = { s with clock := { s.clock with sync := none, pos := tick ++ (0 : BitVec 32), bar := bar, beat := beat,
                                             cues := [] }, ports := t.ports } ∧
        t.ports = (s.clock.cues.foldl (fun st x => st.deliver x.owner (OutcomeData.plain .cueDropped none)) s).ports)

/-- TEMPO_SET: W is the tempo clamped to 1000 to 30000, times 137,438.953472 (2^37 / 10^6) rounded half up, never below
W_min, and any held ramp ends; CLAMPED is replied when the clamp changed the tempo. -/
def Obligations.TempoSetMakesTheRateWord : Prop :=
  ∀ (p : Port) (tempo : BitVec 16) (s : State), s.Taking →
    ∃ t, exec (.tempoSet p tempo) s = .next (t.reply p
        (Reply.bare (if tempo.toNat < 1000 ∨ 30000 < tempo.toNat then .clamped else .ok))) ∧
      t = s.modClock (fun c => { c with rate := t.clock.rate, ramp := .none }) ∧
      t.clock.rate.toNat =
        max 137438954 ((2 * (min 30000 (max 1000 tempo.toNat) * 2 ^ 37) + 1000000) / (2 * 1000000))

/-- TEMPO_GLIDE with a duration of 0 acts as TEMPO_SET; otherwise it holds a glide of 2 × duration steps to the target's
rate word, its slope the change per step rounded half away from zero. TEMPO_CURVE holds the curve it carries, and
refuses a step count outside 1 to 240,000 with RANGE. -/
def Obligations.RampRequests : Prop :=
  ∀ (p : Port) (s : State), s.Taking →
    (∀ tempo, exec (.tempoGlide p tempo 0) s = exec (.tempoSet p tempo) s) ∧
    (∀ tempo duration : BitVec 16, duration ≠ 0 → ∃ slope : Int, ∃ n : Nat, n = 2 * min duration.toNat 60000 ∧
      2 * (slope * n - ((rateOfTempo tempo.toNat).toNat - s.clock.rate.toNat : Int)).natAbs ≤ n ∧
      (2 * (slope * n - ((rateOfTempo tempo.toNat).toNat - s.clock.rate.toNat : Int)).natAbs = n →
        ((rateOfTempo tempo.toNat).toNat - s.clock.rate.toNat : Int).natAbs < (slope * n).natAbs) ∧
      exec (.tempoGlide p tempo duration) s =
        .next ((s.modClock fun c => { c with ramp := .glide (rateOfTempo tempo.toNat) slope n }).reply p
          (Reply.bare (if tempo.toNat < 1000 ∨ 30000 < tempo.toNat ∨ 60000 < duration.toNat then .clamped else .ok)))) ∧
    ∀ slope curvature n : BitVec 32,
      (1 ≤ n.toNat → n.toNat ≤ 240000 →
        exec (.tempoCurve p slope curvature n) s =
          .next ((s.modClock fun c => { c with ramp := .curve slope.toInt curvature.toInt n.toNat }).reply p
            (Reply.bare .ok))) ∧
      ((n = 0 ∨ 240000 < n.toNat) → exec (.tempoCurve p slope curvature n) s = .next (s.reply p (Reply.bare .range)))

/-- METER_SET makes its meter the pending meter; CUE_SET and BEAT_MODE replace the calling port's record and mode. A
meter outside 1 to 16, a beat above 15 that is not ANY and an undefined CUE_SET flag are refused with RANGE. -/
def Obligations.MeterAndCueRequests : Prop :=
  ∀ (p : Port) (s : State), s.Taking →
    (∀ m : Byte, 1 ≤ m.toNat → m.toNat ≤ 16 →
      exec (.meterSet p m) s =
        .next ((s.modClock fun c => { c with pendingMeter := some m.toNat }).reply p (Reply.bare .ok))) ∧
    (∀ m : Byte, (m = 0 ∨ 16 < m.toNat) → exec (.meterSet p m) s = .next (s.reply p (Reply.bare .range))) ∧
    (∀ (bar : BitVec 16) (beat flags : Byte), (8 ≤ flags.toNat ∨ (flags.getLsbD 2 = false ∧ 15 < beat.toNat)) →
      exec (.cueSet p bar beat flags) s = .next (s.reply p (Reply.bare .range))) ∧
    (∀ (bar : BitVec 16) (beat flags : Byte), flags.toNat < 8 → (flags.getLsbD 2 = true ∨ beat.toNat ≤ 15) →
      exec (.cueSet p bar beat flags) s =
        .next ((s.modPort p fun r =>
          { r with cue := { bar := if flags.getLsbD 1 then none else some bar,
                            beat := if flags.getLsbD 2 then none else some beat.toNat,
                            enabled := flags.getLsbD 0 } }).reply p (Reply.bare .ok))) ∧
    exec (.beatMode p 0) s = .next ((s.modPort p fun r => { r with beatMode := .off }).reply p (Reply.bare .ok)) ∧
    exec (.beatMode p 1) s = .next ((s.modPort p fun r => { r with beatMode := .beat }).reply p (Reply.bare .ok)) ∧
    exec (.beatMode p 2) s = .next ((s.modPort p fun r => { r with beatMode := .bar }).reply p (Reply.bare .ok))

/-- A beat step at its time sets T_B and, while the clock is STOPPED, ends there; while it is RUNNING with no ramp and
no crossing, it also adds W to B. Then every cue whose tick B has reached leaves the list and is applied, in list order:
each starts its glide, or sets its tempo, as TEMPO_GLIDE does, and gives TEMPO_APPLIED to its owner. -/
def Obligations.BeatStepsAdvanceThePosition : Prop :=
  ∀ s : State, s.resetLow = false → s.clock.nextBeat = s.now →
    (s.clock.running = false →
      exec .beatStep s = .next (s.modClock fun c => { c with tB := s.now, nextBeat := s.now + 500 })) ∧
    (s.clock.running = true → s.clock.ramp = .none → s.clock.cues = [] →
      crosses (s.clock.pos.extractLsb' 32 32) ((s.clock.pos + s.clock.rate.setWidth 64).extractLsb' 32 32) = false →
      exec .beatStep s = .next (s.modClock fun c =>
        { c with tB := s.now, nextBeat := s.now + 500, pos := c.pos + c.rate.setWidth 64 })) ∧
    ∀ tick : Tick, tick = (s.clock.pos + s.clock.rate.setWidth 64).extractLsb' 32 32 →
      s.clock.running = true → s.clock.ramp = .none → crosses (s.clock.pos.extractLsb' 32 32) tick = false →
      exec .beatStep s = .next ((s.clock.cues.filter fun x => atOrBefore x.tick tick).foldl
        (fun st x => (st.modClock (Clock.startGlide x.tempo x.duration)).deliver x.owner
          (OutcomeData.plain .tempoApplied none))
        (s.modClock fun c => { c with tB := s.now, nextBeat := s.now + 500, pos := c.pos + c.rate.setWidth 64,
                                      cues := c.cues.filter fun x => !atOrBefore x.tick tick }))

/-- A running step whose tick moves to a multiple of 384 makes a beat crossing: the counters move, a bar line applies
the pending meter, BEATOUT starts a pulse of 10 ms or 2 ms, and an enabled CUE or BEAT source latches where it matches.
A step commanded before its time acts too: the model's choice (log 5). -/
def Obligations.BeatCrossingsCountBeatsAndBars : Prop :=
  ∀ s : State, s.resetLow = false → s.clock.running = true → s.clock.cues = [] →
    s.clock.pos.extractLsb' 32 32 ≠ (s.clock.pos + s.clock.rate.setWidth 64).extractLsb' 32 32 →
    ((s.clock.pos + s.clock.rate.setWidth 64).extractLsb' 32 32).toNat % 384 = 0 →
    ∃ t, exec .beatStep s = .next t ∧ t.clock.pos = s.clock.pos + s.clock.rate.setWidth 64 ∧
      (s.clock.beat + 1 ≠ s.clock.meter → t.clock.beat = s.clock.beat + 1 ∧ t.clock.bar = s.clock.bar ∧
        t.clock.meter = s.clock.meter ∧ t.clock.pendingMeter = s.clock.pendingMeter ∧
        t.clock.beatout = some (s.now + 2000)) ∧
      (s.clock.beat + 1 = s.clock.meter → t.clock.beat = 0 ∧ t.clock.bar = s.clock.bar + 1 ∧
        t.clock.meter = s.clock.pendingMeter.getD s.clock.meter ∧ t.clock.pendingMeter = none ∧
        t.clock.beatout = some (s.now + 10000)) ∧
      (∀ p, (s.port p).unit.enabled .cue = true → (s.port p).cue.fits t.clock.bar t.clock.beat = true →
        (t.port p).unit.latched .cue = true) ∧
      (∀ p, (s.port p).unit.enabled .beat = true →
        ((s.port p).beatMode = .beat ∨ ((s.port p).beatMode = .bar ∧ s.clock.beat + 1 = s.clock.meter)) →
        (t.port p).unit.latched .beat = true ∧ (t.port p).unit.beatWindow = some (s.now + 5000)) ∧
      t = { s with clock := t.clock, ports := t.ports }

/-- A running step moves the rate by the slope of the ramp it holds: before the last step of a glide W + S is the rate
and one step less is left, and a curve's slope moves by its curvature, held to 32 bits; the last step of a glide lands
on its target and the last step of a curve on W + S, each ending its ramp; a step past a rate limit stops there, ends
the ramp and sets the clamped flag. As commands of their own the last steps are the model's reading (log 8). -/
def Obligations.RampsEndAtTheirLastStep : Prop :=
  ∀ s : State, s.resetLow = false → s.clock.running = true →
    (∀ target slope left, s.clock.ramp = .glide target slope left → left ≤ 1 →
      137438954 ≤ (s.clock.rate.toNat : Int) + slope → (s.clock.rate.toNat : Int) + slope ≤ 4123168604 →
      exec .glideSnap s = .next (s.modClock fun c => { c with rate := target, ramp := .none })) ∧
    (∀ slope curvature left, s.clock.ramp = .curve slope curvature left → left ≤ 1 →
      137438954 ≤ (s.clock.rate.toNat : Int) + slope → (s.clock.rate.toNat : Int) + slope ≤ 4123168604 →
      exec .curveEnd s = .next (s.modClock fun c =>
        { c with rate := BitVec.ofNat 32 ((s.clock.rate.toNat : Int) + slope).toNat, ramp := .none })) ∧
    ∀ (slope w : Int) (left : Nat) (stepped : Clock), s.clock.nextBeat = s.now → s.clock.cues = [] →
      crosses (s.clock.pos.extractLsb' 32 32) ((s.clock.pos + s.clock.rate.setWidth 64).extractLsb' 32 32) = false →
      w = (s.clock.rate.toNat : Int) + slope →
      stepped = { s.clock with tB := s.now, nextBeat := s.now + 500, pos := s.clock.pos + s.clock.rate.setWidth 64 } →
      (∀ target, s.clock.ramp = .glide target slope left →
        (137438954 ≤ w → w ≤ 4123168604 → 1 < left → exec .beatStep s = .next { s with clock :=
          { stepped with rate := BitVec.ofNat 32 w.toNat, ramp := .glide target slope (left - 1) } }) ∧
        (137438954 ≤ w → w ≤ 4123168604 → left ≤ 1 →
          exec .beatStep s = .next { s with clock := { stepped with rate := target, ramp := .none } })) ∧
      (∀ curvature, s.clock.ramp = .curve slope curvature left →
        (137438954 ≤ w → w ≤ 4123168604 → 1 < left → exec .beatStep s = .next { s with clock :=
          { stepped with rate := BitVec.ofNat 32 w.toNat,
                         ramp := .curve (max (-2 ^ 31) (min (2 ^ 31 - 1) (slope + curvature))) curvature (left - 1) } }) ∧
        (137438954 ≤ w → w ≤ 4123168604 → left ≤ 1 → exec .beatStep s = .next { s with clock :=
          { stepped with rate := BitVec.ofNat 32 w.toNat, ramp := .none } })) ∧
      (((∃ target, s.clock.ramp = .glide target slope left) ∨ ∃ curvature, s.clock.ramp = .curve slope curvature left) →
        (w < 137438954 → exec .beatStep s = .next { s with clock :=
          { stepped with rate := 137438954, ramp := .none, clamped := true } }) ∧
        (4123168604 < w → exec .beatStep s = .next { s with clock :=
          { stepped with rate := 4123168604, ramp := .none, clamped := true } }))

/-- When its end time is reached, BEATOUT returns low, a BEAT window becomes absent with the latch kept, a strike member
leaves the energised set, and the timing monitor publishes and clears its histograms. -/
def Obligations.ReachedEndTimesAct : Prop :=
  ∀ s : State, s.resetLow = false →
    (s.clock.beatout = some s.now →
      exec .beatoutPulseEnd s = .next (s.modClock fun c => { c with beatout := none })) ∧
    (∀ p, (s.port p).unit.beatWindow = some s.now →
      exec (.beatWindowEnd p) s = .next (s.modUnit p fun u => { u with beatWindow := none })) ∧
    (∀ c, strikeTill s.energised c = some s.now →
      exec (.energisedUntilExpiry c) s = .next { s with energised := s.energised.filter fun m => m.chan != c }) ∧
    (s.monitor.nextExpiry = s.now →
      exec .monitorWindowEnd s = .next { s with monitor :=
        { accLateness := Vector.replicate 8 0, accLanding := Vector.replicate 8 0, pubLateness := s.monitor.accLateness,
          pubLanding := s.monitor.accLanding, publications := s.monitor.publications + 1,
          nextExpiry := plus s.now (s.settings.monitorWindow * 1000000) } })

/-! ### The channel table -/

/-- An accepted CHAN_SETUP replaces kind and scalars, sets heat and both counts to 0 and settles a channel that is not
FAULTED; every other field of the part stays. During a scan of the chain too it settles at once: the model's reading
(log 21). -/
def Obligations.ChanSetupConfiguresAndSettles : Prop :=
  ∀ (p : Port) (c : ChanId) (f : SetupFields) (k : Kind) (s : State), s.Taking →
    f.kind = k.byte → 5 ≤ f.pulseMin.toNat → f.pulseMin.toNat ≤ f.pulseMax.toNat → f.pulseMax.toNat ≤ 2000 →
    5 ≤ f.recovery.toNat → f.recovery.toNat ≤ 500 → 100 ≤ f.heatLimit.toNat → 1 ≤ f.coolingRate.toNat →
    f.adaptShift.toNat ≤ 4 → 1 ≤ f.missLimit.toNat → f.missLimit.toNat ≤ 15 →
    (∀ e ∈ s.timeline, e.action.chan ≠ some c) → (s.chan c).slot = none → (s.chan c).hold = none →
    (k = .hold → ∀ mask, s.boardEntry c = some mask → mask.getLsbD (c.val % 8) = true) →
    ∃ t, exec (.chanSetup p (BitVec.ofNat 8 c.val) f) s = .next (t.reply p (Reply.bare .ok)) ∧
      t = s.modChan c (fun _ => t.chan c) ∧
      t.chan c = { s.chan c with
        kind := some k, heat := 0, misses := 0, outliers := 0,
        scalars := { pulseMin := f.pulseMin.toNat, pulseMax := f.pulseMax.toNat, recovery := f.recovery.toNat,
                     heatLimit := f.heatLimit.toNat, coolingRate := f.coolingRate.toNat,
                     adaptShift := f.adaptShift.toNat, missLimit := f.missLimit.toNat },
        presence := (t.chan c).presence, cause := (t.chan c).cause } ∧
      ((s.chan c).presence = .faulted → (t.chan c).presence = .faulted ∧ (t.chan c).cause = (s.chan c).cause) ∧
      ((s.chan c).presence ≠ .faulted → (t.chan c).cause = none ∧
        (t.chan c).presence = if (s.boardEntry c).isSome then .ready else .absent)

/-- CHAN_CURVE takes each knot into its range and replaces the eight together, replying CLAMPED when a value changed,
and refuses a busy channel with BUSY; CHAN_RELEASE settles a FAULTED channel with its miss count 0, and refuses another
with STATE. Both refuse a channel number above 127 with RANGE. Settling gives ABSENT without the board, UNCONFIGURED
without a kind or for a HOLD the board cannot hold, whose kind it takes, and READY otherwise. -/
def Obligations.CurveAndReleaseRequests : Prop :=
  (∀ (p : Port) (c : ChanId) (s : State), s.Taking →
    (∀ knots : Vector KnotFields 8, s.channelBusy c = false →
      ∃ code, exec (.chanCurve p (BitVec.ofNat 8 c.val) knots) s =
          .next ((s.modChan c fun ch => { ch with knots := knots.map fun k =>
            { pulse := min 2000 (max 5 k.pulse.toNat), flight := min k.flight.toNat 6000 } }).reply p
              (Reply.bare code)) ∧
        (code = .ok ↔ ∀ i : Fin 8, 5 ≤ knots[i].pulse.toNat ∧ knots[i].pulse.toNat ≤ 2000 ∧
          knots[i].flight.toNat ≤ 6000) ∧ (code = .ok ∨ code = .clamped)) ∧
    (∀ knots : Vector KnotFields 8, s.channelBusy c = true →
      exec (.chanCurve p (BitVec.ofNat 8 c.val) knots) s = .next (s.reply p (Reply.bare .busy))) ∧
    (∀ (n : Byte) (knots : Vector KnotFields 8), 127 < n.toNat →
      exec (.chanCurve p n knots) s = .next (s.reply p (Reply.bare .range)) ∧
      exec (.chanRelease p n) s = .next (s.reply p (Reply.bare .range))) ∧
    ((s.chan c).presence = .faulted →
      exec (.chanRelease p (BitVec.ofNat 8 c.val)) s =
        .next ((s.modChan c fun ch => Channel.settle (s.boardEntry c) (outputOf c) { ch with misses := 0 }).reply p
          (Reply.bare .ok))) ∧
    ((s.chan c).presence ≠ .faulted →
      exec (.chanRelease p (BitVec.ofNat 8 c.val)) s = .next (s.reply p (Reply.bare .state)))) ∧
  ∀ (ch : Channel) (o : Fin 8),
    ch.settle none o = { ch with presence := .absent, cause := none } ∧
    ∀ mask : Byte,
      (ch.kind = none → ch.settle (some mask) o = { ch with presence := .unconfigured, cause := none }) ∧
      (ch.kind = some .hold → mask.getLsbD o.val = false →
        ch.settle (some mask) o = { ch with presence := .unconfigured, cause := none, kind := none }) ∧
      ((ch.kind = some .strike ∨ ch.kind = some .hold ∧ mask.getLsbD o.val = true) →
        ch.settle (some mask) o = { ch with presence := .ready, cause := none })

/-- CHAN_READ, PORT_READ, SYS_READ, TIMING_READ and NOTE_READ change nothing but the reply; CLK_READ then clears its two
flags and CHAIN_READ the overflow latch. The payloads are those of the model's encoders, whose open points (the pending
sync action, the energised set, the shared use, the steps left, a slot and its lateness, the order of the hold masks and
the time left) are the model's choices (log 11). The PORT_READ payload is 14 bytes, 14 for each queued slot and 19 for
each open record. -/
def Obligations.ReadsReplyWithTheState : Prop :=
  ∀ (p : Port) (s : State), s.Taking →
    (∀ c : ChanId, exec (.chanRead p (BitVec.ofNat 8 c.val)) s =
      .next (s.reply p ⟨.ok, (s.chan c).bytes (s.scanning (chainOf c))⟩)) ∧
    exec (.portRead p) s = .next (s.reply p ⟨.ok, (s.port p).reader.bytes⟩) ∧
    exec (.sysRead p) s = .next (s.reply p ⟨.ok, s.sysBytes⟩) ∧
    exec (.timingRead p) s = .next (s.reply p ⟨.ok, s.timingBytes⟩) ∧
    exec (.noteRead p) s = .next (s.reply p ⟨.ok, s.noteBytes p⟩) ∧
    ((s.port p).reader.bytes.length =
      14 + 14 * (s.port p).reader.queue.length + 19 * (s.port p).reader.opened.length) ∧
    exec (.clkRead p) s =
      .next ((s.modClock fun c => { c with clamped := false, placeRefused := false }).reply p ⟨.ok, s.clock.bytes⟩) ∧
    ∀ d : ChainId, exec (.chainRead p (BitVec.ofNat 8 d.val)) s =
      .next ((s.modChain d fun ch => { ch with overflow := false }).reply p ⟨.ok, (s.chain d).bytes⟩)

/-! ### Phrase memory -/

/-- CELLS_WRITE replaces the bytes of its cells and no other byte of any region, and CELLS_READ returns the bytes of its
cells as they stand; both refuse with RANGE what is no whole number of cells, too many of them, or cells past 2047. The
eight bytes of a cell spell the kind that their first four bits name, with its fields. -/
def Obligations.CellsAreWrittenAndRead : Prop :=
  (∀ (p : Port) (start : BitVec 16) (s : State), s.Taking →
    (∀ (data : List Byte) (n : Nat), 1 ≤ n → n ≤ 30 → data.length = 8 * n → start.toNat + n ≤ 2048 →
      Memory.wf (s.port p).mem = true →
      ∃ t, exec (.cellsWrite p start data) s = .next (t.reply p (Reply.bare .ok)) ∧
        t = s.modPort p (fun r => { r with mem := (t.port p).mem }) ∧
        ∀ a, readByte (t.port p).mem a =
          if 8 * start.toNat ≤ a ∧ a < 8 * start.toNat + 8 * n then data.getD (a - 8 * start.toNat) 0
          else readByte (s.port p).mem a) ∧
    (∀ count : Byte, 1 ≤ count.toNat → count.toNat ≤ 31 → start.toNat + count.toNat ≤ 2048 →
      ∃ payload, exec (.cellsRead p start count) s = .next (s.reply p ⟨.ok, payload⟩) ∧
        payload.length = 8 * count.toNat ∧
        ∀ i, i < payload.length → payload[i]? = some (readByte (s.port p).mem (8 * start.toNat + i))) ∧
    (∀ data : List Byte, (data.length % 8 ≠ 0 ∨ data.length = 0 ∨ 240 < data.length ∨
        2048 < start.toNat + data.length / 8) →
      exec (.cellsWrite p start data) s = .next (s.reply p (Reply.bare .range))) ∧
    ∀ count : Byte, (count = 0 ∨ 31 < count.toNat ∨ 2048 < start.toNat + count.toNat) →
      exec (.cellsRead p start count) s = .next (s.reply p (Reply.bare .range))) ∧
  ∀ (b0 b1 b2 b3 b4 b5 b6 b7 : Byte) (cell : Cell) (last : Nat), cell = decodeCell [b0, b1, b2, b3, b4, b5, b6, b7] →
    last = b4.toNat % 16 * 2 ^ 24 + b5.toNat * 2 ^ 16 + b6.toNat * 2 ^ 8 + b7.toNat →
    (b0.toNat % 16 = 0 → cell = .endCell) ∧
    (b0.toNat % 16 = 1 → cell = .head { clock := if b0.getLsbD 4 then .free else .beat, overhang := b0.getLsbD 5,
                                        stopOnFault := b0.getLsbD 6, repeats := b1.toNat, length := last }) ∧
    (b0.toNat % 16 = 2 → ∃ c : ChanId, c.val = b1.toNat % 128 ∧
      cell = .stroke c (b2.toNat % 128) (b0.getLsbD 4) (b0.getLsbD 5) last) ∧
    (b0.toNat % 16 = 3 → ∃ c : ChanId, c.val = b1.toNat % 128 ∧
      cell = .hold c (b0.getLsbD 5) b2.toNat (b0.getLsbD 4) last) ∧
    (b0.toNat % 16 = 4 → cell = .link (b2.toNat % 8 * 2 ^ 8 + b3.toNat)) ∧
    (b0.toNat % 16 = 5 → cell = .setLevel b2.toNat last) ∧
    (b0.toNat % 16 = 6 → cell = .setTempo (b1.toNat % 128 * 2 ^ 8 + b2.toNat) (b0.toNat / 16 * 2 ^ 8 + b3.toNat) last) ∧
    (b0.toNat % 16 = 7 → cell = .rest (b0.getLsbD 4) last) ∧
    (8 ≤ b0.toNat % 16 → cell = .undefined)

/-! ### The cue reader -/

/-- An accepted PHRASE_POST appends a slot with the head as it stands and a serial that no held phrase has, which is the
next serial where that is free, and replies the serial. A start cell that is no HEAD, a full queue and an origin that
does not fit refuse the post with BAD_PHRASE, QUEUE_FULL and STATE. The tick origins fit a beat phrase, the time origins
a free one, and AFTER fits the clock of the last queued phrase, else of the current one, else of the chain end. -/
def Obligations.PostsQueueTheirPhrase : Prop :=
  (∀ (p : Port) (start : BitVec 16) (mode : Byte) (value : BitVec 32) (origin : Origin) (head : Head) (s : State),
    s.Taking → s.safeLow = false → start.toNat ≤ 2047 → originOf s.now mode value = some origin →
    ((∀ h, decodeCell (readCell (s.port p).mem start.toNat) ≠ .head h) →
      exec (.phrasePost p start mode value) s = .next (s.reply p (Reply.bare .badPhrase))) ∧
    (decodeCell (readCell (s.port p).mem start.toNat) = .head head → 4 ≤ (s.port p).reader.queue.length →
      exec (.phrasePost p start mode value) s = .next (s.reply p (Reply.bare .queueFull))) ∧
    (decodeCell (readCell (s.port p).mem start.toNat) = .head head → (s.port p).reader.queue.length < 4 →
      (s.port p).reader.originFits origin head.clock = false →
      exec (.phrasePost p start mode value) s = .next (s.reply p (Reply.bare .state))) ∧
    (decodeCell (readCell (s.port p).mem start.toNat) = .head head →
    (s.port p).reader.queue.length < 4 → (s.port p).reader.opened.length ≤ 8 →
    (s.port p).reader.originFits origin head.clock = true →
    ∃ serial : BitVec 8,
      exec (.phrasePost p start mode value) s =
        .next ((s.modReader p fun rd =>
          { rd with queue := rd.queue ++ [⟨serial, start.toNat, origin, head, false⟩], nextSerial := serial + 1 }).reply p
            ⟨.ok, [serial]⟩) ∧
      (∀ q ∈ (s.port p).reader.queue, q.serial ≠ serial) ∧ (∀ o ∈ (s.port p).reader.opened, o.serial ≠ serial) ∧
      ((s.port p).reader.holdsSerial (s.port p).reader.nextSerial = false → serial = (s.port p).reader.nextSerial))) ∧
  (∀ (now : StageTime) (value : BitVec 32),
    originOf now 0 value = some (.atTick value) ∧ originOf now 1 value = some .nextBar ∧
    ((value - now).toNat ≤ 600000000 → originOf now 2 value = some (.atTime value)) ∧
    (value.toNat ≤ 600000 → originOf now 3 value = some (.nowPlus value.toNat)) ∧
    originOf now 4 value = some .after) ∧
  ∀ (rd : Reader) (clock : PhraseClock),
    (∀ t, rd.originFits (.atTick t) clock = true ↔ clock = .beat) ∧ (rd.originFits .nextBar clock = true ↔ clock = .beat) ∧
    (∀ t, rd.originFits (.atTime t) clock = true ↔ clock = .free) ∧
    (∀ d, rd.originFits (.nowPlus d) clock = true ↔ clock = .free) ∧
    (∀ q, rd.queue.getLast? = some q →
      (rd.originFits .after clock = true ↔ q.head.clock = clock ∧ q.head.length ≠ 0)) ∧
    (rd.queue = [] → ∀ o, rd.current = some o →
      (rd.originFits .after clock = true ↔ o.clock = clock ∧ o.length ≠ 0)) ∧
    (rd.queue = [] → rd.current = none →
      (rd.originFits .after clock = true ↔ ∃ e, rd.chainEnd = some e ∧ e.clock = clock))

/-- PORT_STOP and PORT_FLUSH discard and count the queue. AT_END leaves the rest of the reader and settles the state of
a port that is not HELD; NOW, CUT and the flush leave no current phrase and no chain end; CUT takes the port's
references, and no others, out of the timeline, and gives each WITHDRAWN, head to tail and first to last; the flush
leaves no HELD port. Nothing of another port changes, but that a CUT judges TIMELINE_HIGH again in each. A current
phrase is CUT, and is done at once if nothing of it is outstanding. -/
def Obligations.StopsAndFlushesClearTheReader : Prop :=
  ∀ (p : Port) (discards : Nat) (s : State), s.Taking → (s.port p).reader.readingCount ≤ 1 →
    discards = min ((s.port p).reader.discards + (s.port p).reader.queue.length) 65535 →
    (∃ t, exec (.portStop p 0) s = .next t ∧ (t.port p).reader = { (s.port p).reader with
        queue := [], discards := discards,
        state := if (s.port p).reader.isHeld then (s.port p).reader.state
          else if (s.port p).reader.current.isSome then .playing
          else if (s.port p).reader.opened = [] then .idle else .draining } ∧
      (t.port p).link = { (s.port p).link with reply := some (Reply.bare .ok) } ∧
      (∀ q, q ≠ p → t.port q = s.port q) ∧ t = { s with ports := t.ports }) ∧
    (∃ t, exec (.portStop p 1) s = .next t ∧ (t.port p).reader.queue = [] ∧ (t.port p).reader.current = none ∧
      (t.port p).reader.chainEnd = none ∧ (t.port p).reader.discards = discards ∧
      (t.port p).link = { (s.port p).link with reply := some (Reply.bare .ok) } ∧
      (∀ q, q ≠ p → t.port q = s.port q) ∧ t = { s with ports := t.ports } ∧
      t = (s.modPort p fun r => PortRec.settle s.now (r.stopNow s.now)).reply p (Reply.bare .ok)) ∧
    (∃ t, exec (.portStop p 2) s = .next t ∧ (t.port p).reader.queue = [] ∧ (t.port p).reader.current = none ∧
      (t.port p).reader.chainEnd = none ∧ (t.port p).reader.discards = discards ∧
      (t.port p).link = { (s.port p).link with reply := some (Reply.bare .ok) } ∧
      (∀ e ∈ t.timeline, ∀ o ∈ e.owners, o.port ≠ p) ∧
      t.timeline = s.timeline.filterMap (fun e =>
        if (e.owners.filter fun o => o.port != p) = [] then none
        else some { e with owners := e.owners.filter fun o => o.port != p }) ∧
      (∀ q, q ≠ p → t.port q = { s.port q with
        unit := (s.port q).unit.judge s.now .timelineHigh (decide (s.settings.highMark ≤ s.timeline.length))
          (decide (s.settings.highMark ≤ t.timeline.length)) }) ∧
      t = { s with ports := t.ports, timeline := t.timeline } ∧
      t = (((s.timeline.flatMap fun e => (e.owners.filter fun o => o.port == p).map fun o =>
        (o, e.outcome .withdrawn none)).foldl (fun st x => st.deliver x.1 x.2)
          ((s.modPort p (PortRec.stopNow s.now)).withTimeline t.timeline)).modPort p (PortRec.settle s.now)).reply p
            (Reply.bare .ok)) ∧
    (∃ t, exec (.portFlush p) s = .next t ∧ (t.port p).reader.queue = [] ∧ (t.port p).reader.current = none ∧
      (t.port p).reader.chainEnd = none ∧ (t.port p).reader.discards = discards ∧
      (t.port p).link = { (s.port p).link with reply := some (Reply.bare .ok) } ∧
      (t.port p).reader.isHeld = false ∧ (∀ q, q ≠ p → t.port q = s.port q) ∧ t = { s with ports := t.ports } ∧
      ∀ r : PortRec, r = (s.port p).stopNow s.now → t.port p =
        { r with
          link := { r.link with reply := some (Reply.bare .ok) },
          reader := { r.reader with state := if r.reader.opened = [] then .idle else .draining },
          unit := if r.reader.opened = [] ∧ r.reader.state ≠ .idle then r.unit.raise s.now .portIdle else r.unit }) ∧
    ∀ (r : PortRec) (emptied : Reader), r = s.port p →
      emptied = { r.reader with queue := [], discards := discards, chainEnd := none } →
      (r.reader.current = none → r.stopNow s.now = { r with reader := emptied }) ∧
      ∀ o, r.reader.current = some o → (∀ y ∈ r.reader.opened, y.serial = o.serial → y = o) →
        (o.outstanding ≠ 0 → r.stopNow s.now = { r with
          reader := { emptied with
            opened := r.reader.opened.map fun y => if y.serial = o.serial then { y with reading := .cut } else y } }) ∧
        (o.outstanding = 0 → r.stopNow s.now = PortRec.settle s.now { r with
          reader := { emptied with opened := r.reader.opened.filter (fun y => y.serial != o.serial) },
          unit := r.unit.raise s.now .phraseDone })

/-- PORT_GO leaves HELD: after FAULT_STOP or SAFE the open list and queue stand and the port settles; after a program
error the current phrase is no longer current; a port that is not HELD is refused with STATE. -/
def Obligations.GoLeavesHeld : Prop :=
  ∀ (p : Port) (s : State), s.Taking → s.safeLow = false → (s.port p).reader.readingCount ≤ 1 →
    ((s.port p).reader.state = .held .faultStop ∨ (s.port p).reader.state = .held .safe →
      ∃ t, exec (.portGo p) s = .next t ∧
        (t.port p).reader = { (s.port p).reader with state := (s.port p).reader.settledState } ∧
        t = { s with ports := t.ports }) ∧
    (∀ error, (s.port p).reader.state = .held (.program error) →
      ∃ t, exec (.portGo p) s = .next t ∧ (t.port p).reader.current = none ∧ (t.port p).reader.isHeld = false ∧
        (t.port p).reader.queue = (s.port p).reader.queue ∧
        (∀ o, (s.port p).reader.current = some o → (t.port p).reader.chainEnd = o.erroredEnd) ∧
        t = { s with ports := t.ports }) ∧
    ((s.port p).reader.isHeld = false → exec (.portGo p) s = .next (s.reply p (Reply.bare .state)))

/-- A STRIKE on a READY strike channel, with no merge partner, arms one entry if there is room: sent at the arrival,
aimed at the arrival plus Tf plus the predicted flight, placed by its send time, and answered ARMED; without room it is
refused with FULL. A HOLD_SET on a READY hold channel does so with a flight of 0. A muted or unready request replies its
outcome code and delivers that outcome at the port. The velocity is v × L / 128 rounded half up, plus the boost of an
accent, within 1 to 127, and MUTED below one half; pulse and flight lie on the straight line between the two knots of
its segment. -/
def Obligations.ImmediateRequestsArmAnEntry : Prop :=
  (∀ (p : Port) (c : ChanId) (velocity flags : Byte) (s : State), s.Taking → s.safeLow = false →
    1 ≤ velocity.toNat → velocity.toNat ≤ 127 → flags.toNat ≤ 1 →
    (effectiveVelocity velocity.toNat (s.port p).reader.level (flags.getLsbD 0) s.settings.accentBoost = none →
      exec (.strike p (BitVec.ofNat 8 c.val) velocity flags) s = .next ((s.deliver (OwnerRef.bare p)
        { OutcomeData.plain .muted (some c) with immediate := true }).reply p ⟨.ok, [13]⟩)) ∧
    ∀ v, effectiveVelocity velocity.toNat (s.port p).reader.level (flags.getLsbD 0) s.settings.accentBoost = some v →
      (∀ code, s.channelCheck c .strike = some code →
        exec (.strike p (BitVec.ofNat 8 c.val) velocity flags) s = .next ((s.deliver (OwnerRef.bare p)
          { OutcomeData.plain code (some c) with vEff := v, immediate := true }).reply p
            ⟨.ok, [BitVec.ofNat 8 code.num]⟩)) ∧
      (s.channelCheck c .strike = none →
        (∀ e ∈ s.timeline, ∀ fig, e.action = .strike c fig → s.settings.mergeWindow <
          distance e.target (plus s.now (s.settings.frameTime + (figuresOf (s.chan c) v).flight * 10))) →
        exec (.strike p (BitVec.ofNat 8 c.val) velocity flags) s = .next
          (if admits s.timeline p = true then
            (s.withTimeline (placeEntry
              { action := .strike c (figuresOf (s.chan c) v),
                target := plus s.now (s.settings.frameTime + (figuresOf (s.chan c) v).flight * 10),
                fire := plus s.now s.settings.frameTime, ideal := s.now, send := s.now, owners := [OwnerRef.bare p],
                merged := false, retimed := false, immediate := true } s.timeline)).reply p ⟨.ok, [0x20]⟩
          else s.reply p (Reply.bare .full)))) ∧
  (∀ (p : Port) (c : ChanId) (action level : Byte) (s : State), s.Taking → s.safeLow = false →
    (action = 0 ∧ level ≠ 0 ∨ action = 1) →
    (∀ code, s.channelCheck c .hold = some code →
      exec (.holdSet p (BitVec.ofNat 8 c.val) action level) s = .next ((s.deliver (OwnerRef.bare p)
        { OutcomeData.plain code (some c) with immediate := true }).reply p ⟨.ok, [BitVec.ofNat 8 code.num]⟩)) ∧
    (s.channelCheck c .hold = none →
      exec (.holdSet p (BitVec.ofNat 8 c.val) action level) s = .next
        (if admits s.timeline p = true then
          (s.withTimeline (placeEntry
            { action := if action = 0 then .lift c level.toNat else .drop c,
              target := plus s.now s.settings.frameTime, fire := plus s.now s.settings.frameTime, ideal := s.now,
              send := s.now, owners := [OwnerRef.bare p], merged := false, retimed := false,
              immediate := true } s.timeline)).reply p ⟨.ok, [0x20]⟩
        else s.reply p (Reply.bare .full)))) ∧
  (∀ (v level boost : Nat) (accent : Bool),
    (v * level < 64 → effectiveVelocity v level accent boost = none) ∧
    (64 ≤ v * level → effectiveVelocity v level accent boost =
      some (max 1 (min 127 ((2 * (v * level) + 128) / 256 + if accent then boost else 0))))) ∧
  ∀ (ch : Channel) (i : Fin 7) (x : Nat), (x ≤ 17 ∨ i = 6 ∧ x = 18) →
    ch.scalars.pulseMin ≤ ch.scalars.pulseMax →
    ∃ fig, figuresOf ch (1 + 18 * i.val + x) = fig ∧ fig.vEff = 1 + 18 * i.val + x ∧ fig.seg = i.val ∧ fig.off = x ∧
      (fig.pulse : Int) = max (ch.scalars.pulseMin : Int) (min (ch.scalars.pulseMax : Int)
        ((ch.knots[i.val].pulse : Int) + (((ch.knots[i.val + 1].pulse : Int) - ch.knots[i.val].pulse) * x + 9) / 18)) ∧
      (fig.flight : Int) =
        (ch.knots[i.val].flight : Int) + (((ch.knots[i.val + 1].flight : Int) - ch.knots[i.val].flight) * x + 9) / 18

/-- A STROKE cell of a free phrase, within the horizon and not clipped, whose stroke is in time, has no merge partner
and finds room, is consumed: its entry aims at the cell's target and is placed by its send time, the reader steps past
the cell, and the phrase has one more outcome to come. A timed cell waits while it has no target or its target lies
beyond the horizon, is CLIPPED past the length of a phrase without OVERHANG, and otherwise acts by its kind: a silent
cell is passed over, SET_LEVEL sets the level, SET_TEMPO files its cue or gives CUE_FULL, and strokes, holds and marks
give their outcome at once, arm an entry, or stay unread for want of room; a stroke that finds a partner merges into it,
placed again as log 23 says where it raises the v_eff, or is absorbed. A target is the pass origin plus the offset, as a
stage time or by the beat clock as it stands. -/
def Obligations.StrokeCellsAreArmed : Prop :=
  (∀ (p : Port) (o : OpenRec) (c : ChanId) (velocity : Nat) (mark accent : Bool) (offset v : Nat)
    (target ideal : StageTime) (s : State),
    (s.port p).reader.current = some o → o.addr < 2048 → o.clock = .free →
    decodeCell (readCell (s.port p).mem o.addr) = .stroke c velocity mark accent offset →
    (o.length = 0 ∨ offset < o.length ∨ o.overhang = true) →
    target = plus (plus o.origin (o.pass * o.length)) offset →
    later target (plus s.now (s.settings.horizon * 1000)) = false →
    effectiveVelocity velocity (s.port p).reader.level accent s.settings.accentBoost = some v →
    s.channelCheck c .strike = none →
    ideal = minus (minus target ((figuresOf (s.chan c) v).flight * 10)) s.settings.frameTime →
    later ideal s.now = true →
    (∀ e ∈ s.timeline, ∀ fig, e.action = .strike c fig → s.settings.mergeWindow < distance e.target target) →
    admits s.timeline p = true → (s.port p).reader.isHeld = false →
    ∃ t, s.readOne p = .more t ∧
      t.timeline = placeEntry
        { action := .strike c (figuresOf (s.chan c) v), target := target,
          fire := minus target ((figuresOf (s.chan c) v).flight * 10), ideal := ideal, send := ideal,
          owners := [⟨p, some ⟨o.serial, o.addr⟩, o.pass, mark⟩], merged := false, retimed := false,
          immediate := false } s.timeline ∧
      (t.port p).reader = { (s.port p).reader with opened := (s.port p).reader.opened.map fun x =>
        if x.serial = o.serial then { x with addr := x.addr + 1, links := 0, outstanding := x.outstanding + 1 } else x } ∧
      t = { s with timeline := t.timeline, ports := t.ports }) ∧
  (∀ (p : Port) (o : OpenRec) (cell : Cell) (offset : Nat) (target : StageTime) (past noted : State) (ref : OwnerRef)
    (s : State),
    (s.port p).reader.current = some o → o.addr < 2048 → (s.port p).reader.isHeld = false →
    cell = decodeCell (readCell (s.port p).mem o.addr) → cell.offset = some offset →
    past = s.modReader p (Reader.modRecord o.serial fun x => { x with addr := x.addr + 1, links := 0 }) →
    noted = past.modReader p (Reader.modRecord o.serial fun x => { x with outstanding := x.outstanding + 1 }) →
    ref = ⟨p, some ⟨o.serial, o.addr⟩, o.pass, cell.mark⟩ →
    (s.targetOf o o.pass offset = none → s.readOne p = .stop s) ∧
    (s.targetOf o o.pass offset = some target → later target (plus s.now (s.settings.horizon * 1000)) = true →
      s.readOne p = .stop s) ∧
    (s.targetOf o o.pass offset = some target → later target (plus s.now (s.settings.horizon * 1000)) = false →
      ((o.length ≠ 0 ∧ o.length ≤ offset ∧ o.overhang = false) →
        s.readOne p = (noted.deliver ref (OutcomeData.plain .clipped cell.chan)).unlessHeld p) ∧
      ((o.length = 0 ∨ offset < o.length ∨ o.overhang = true) →
        (∀ c mark accent, cell = .stroke c 0 mark accent offset → s.readOne p = .more past) ∧
        (cell = .rest false offset → s.readOne p = .more past) ∧
        (∀ level, cell = .setLevel level offset →
          s.readOne p = .more (past.modReader p fun rd => { rd with level := level })) ∧
        (∀ c velocity mark accent, cell = .stroke c velocity mark accent offset → velocity ≠ 0 →
          (effectiveVelocity velocity (s.port p).reader.level accent s.settings.accentBoost = none →
            s.readOne p = (noted.deliver ref (OutcomeData.plain .muted (some c))).unlessHeld p) ∧
          ∀ v, effectiveVelocity velocity (s.port p).reader.level accent s.settings.accentBoost = some v →
            (∀ code, s.channelCheck c .strike = some code → s.readOne p =
              (noted.deliver ref { OutcomeData.plain code (some c) with vEff := v }).unlessHeld p) ∧
            ∀ ideal, s.channelCheck c .strike = none →
              ideal = minus (minus target ((figuresOf (s.chan c) v).flight * 10)) s.settings.frameTime →
              later ideal s.now = false → s.settings.tolerance < since ideal s.now → s.readOne p =
                (noted.deliver ref { OutcomeData.plain .late (some c) with vEff := v }).unlessHeld p) ∧
        (∀ c velocity mark accent v fig fire ideal send, cell = .stroke c velocity mark accent offset → velocity ≠ 0 →
          effectiveVelocity velocity (s.port p).reader.level accent s.settings.accentBoost = some v →
          s.channelCheck c .strike = none → fig = figuresOf (s.chan c) v → fire = minus target (fig.flight * 10) →
          ideal = minus fire s.settings.frameTime →
          (later ideal s.now = true ∧ send = ideal ∨
            later ideal s.now = false ∧ since ideal s.now ≤ s.settings.tolerance ∧ send = s.now) →
          s.ArmsStroke p o past noted ref c fig target fire ideal send) ∧
        (∀ c drop level mark, cell = .hold c drop level mark offset →
          (∀ code, s.channelCheck c .hold = some code →
            s.readOne p = (noted.deliver ref (OutcomeData.plain code (some c))).unlessHeld p) ∧
          (s.channelCheck c .hold = none → s.ArmsCell p o past noted ref (some c)
            (if drop then .drop c else .lift c (max 1 level)) target (minus target s.settings.frameTime))) ∧
        (cell = .rest true offset → s.ArmsCell p o past noted ref none .mark target target) ∧
        ∀ tempo duration tick, cell = .setTempo tempo duration offset →
          (o.clock = .beat → tick = plus (plus o.origin (o.pass * o.length)) offset) →
          (o.clock = .free → ∃ n : Nat, ((target - s.clock.tB).toInt ≤ 0 → n = 0) ∧
            (0 < (target - s.clock.tB).toInt →
              (target - s.clock.tB).toInt ≤ 500 * n ∧ 500 * (n : Int) < (target - s.clock.tB).toInt + 500) ∧
            tick = (s.clock.pos + BitVec.ofNat 64 (n * s.clock.rate.toNat)).extractLsb' 32 32) →
          (s.clock.cues.length < 4 → s.readOne p = .more (noted.modClock fun c =>
            { c with cues := placeAfter (fun x => atOrBefore x.tick tick)
                       { tick := tick, tempo := max 1000 (min 30000 tempo), duration := 50 * duration, owner := ref }
                       c.cues })) ∧
          (4 ≤ s.clock.cues.length →
            s.readOne p = (noted.deliver ref (OutcomeData.plain .cueFull none)).unlessHeld p)))) ∧
  ∀ (o : OpenRec) (k offset : Nat) (q : BitVec 32) (s : State), q = plus (plus o.origin (k * o.length)) offset →
    (o.clock = .free → s.targetOf o k offset = some q) ∧
    (o.clock = .beat → s.clock.running = false → s.targetOf o k offset = none) ∧
    (o.clock = .beat → s.clock.running = true →
      ((since s.clock.tick q = 2 ^ 31 ∨ (earlier s.clock.tick q = true ∧ 65536 < since s.clock.tick q)) →
        s.targetOf o k offset = none) ∧
      ∀ d : Int, ((since s.clock.tick q ≤ 65536 ∧ d = since s.clock.tick q) ∨
          (earlier q s.clock.tick = true ∧ d = max (-65536) (-(since q s.clock.tick : Int)))) →
        s.targetOf o k offset = some (s.clock.tB + BitVec.ofInt 32
          ((2 * ((d * 2 ^ 32 - s.clock.fraction.toNat) * 500) + s.clock.rate.toNat) / (2 * s.clock.rate.toNat))))

/-- A STRIKE that finds a partner with room for its reference merges: the reference is appended, MERGED and IMMEDIATE
are set and the partner's target stays. A softer or equal stroke leaves the partner's figures and place; a harder one
gives it its own figures, aims it anew at the kept target, and places it by its new send time, which is never before the
stage time of the merge, also where that leaves it as it was: the model's reading of R104 beside R98 (log 23). A full
partner absorbs the stroke. An entry is placed after every entry whose send time is equal or earlier. -/
def Obligations.StrikeMergesIntoItsPartner : Prop :=
  (∀ (p : Port) (c : ChanId) (velocity : Byte) (v : Nat) (pre post : List Entry) (partner : Entry) (fig : Figures)
    (s : State), s.Taking → s.safeLow = false → 1 ≤ velocity.toNat → velocity.toNat ≤ 127 →
    effectiveVelocity velocity.toNat (s.port p).reader.level false s.settings.accentBoost = some v →
    s.channelCheck c .strike = none → s.timeline = pre ++ partner :: post → partner.action = .strike c fig →
    distance partner.target (plus s.now (s.settings.frameTime + (figuresOf (s.chan c) v).flight * 10)) ≤
      s.settings.mergeWindow →
    (∀ e ∈ pre, ∀ f, e.action = .strike c f → s.settings.mergeWindow <
      distance e.target (plus s.now (s.settings.frameTime + (figuresOf (s.chan c) v).flight * 10))) →
    (partner.owners.length < 4 → v ≤ fig.vEff →
      exec (.strike p (BitVec.ofNat 8 c.val) velocity 0) s =
        .next ((s.withTimeline (pre ++ { partner with owners := partner.owners ++ [OwnerRef.bare p], merged := true,
                                                      immediate := true } :: post)).reply p ⟨.ok, [0x21]⟩)) ∧
    (partner.owners.length < 4 → fig.vEff < v → ∀ fire ideal : StageTime,
      fire = minus partner.target ((figuresOf (s.chan c) v).flight * 10) → ideal = minus fire s.settings.frameTime →
      exec (.strike p (BitVec.ofNat 8 c.val) velocity 0) s =
        .next ((s.withTimeline (placeEntry
          { partner with action := .strike c (figuresOf (s.chan c) v), fire := fire, ideal := ideal,
                         send := if later ideal s.now then ideal else s.now,
                         owners := partner.owners ++ [OwnerRef.bare p], merged := true, immediate := true }
          (pre ++ post))).reply p ⟨.ok, [0x21]⟩)) ∧
    (4 ≤ partner.owners.length →
      exec (.strike p (BitVec.ofNat 8 c.val) velocity 0) s = .next ((s.deliver (OwnerRef.bare p)
        { OutcomeData.plain .absorbed (some c) with
          vEff := v, pulse := (figuresOf (s.chan c) v).pulse, immediate := true }).reply p ⟨.ok, [15]⟩))) ∧
  ∀ (e : Entry) (l : List Entry), ∃ pre post, l = pre ++ post ∧ placeEntry e l = pre ++ e :: post ∧
    (∀ x ∈ post, atOrBefore x.send e.send = false) ∧ ∀ x, pre.getLast? = some x → atOrBefore x.send e.send = true

/-- A reader pass ages stored times and, while SAFE is asserted or the port is HELD, does nothing more. Otherwise it
takes a phrase if it can, reads cell after cell until one stops it, and settles the port; a pass that no cell stops ends
the model (log 6). A take opens a record at the list's end with the origin its mode gives. A LINK moves the reader to
its target unless it is the seventeenth in a row; an END with passes left begins the next pass once its origin is within
the horizon, and with none left it ends the reading; an undefined kind, an address of 2048 and a LINK too many hold the
port. -/
def Obligations.ReaderPassesAgeAndEndPhrases : Prop :=
  (∀ (p : Port) (s : State), s.resetLow = false → (s.port p).nextPass = s.now →
    ((s.safeLow = true ∨ (s.port p).reader.isHeld = true) →
      exec (.readerPass p) s = .next (s.modPort p fun r =>
        { r with reader := r.reader.age s.now s.clock.tick, nextPass := s.now + 500 })) ∧
    (∀ o, s.safeLow = false → (s.port p).reader.isHeld = false → (s.port p).reader.queue = [] →
      (s.port p).reader.opened = [o] → o.reading = .reading → o.addr < 2048 → o.passesLeft = 0 → o.outstanding = 0 →
      (readByte (s.port p).mem (8 * o.addr)).toNat % 16 = 0 →
      ∃ t, exec (.readerPass p) s = .next t ∧ (t.port p).reader.opened = [] ∧ (t.port p).reader.state = .idle ∧
        (t.port p).reader.chainEnd = (if o.length = 0 then none
          else some ⟨o.clock, plus o.origin (o.pass * o.length + o.length)⟩) ∧
        t = { s with ports := t.ports }) ∧
    ∀ s1 s2 : State, s.safeLow = false → (s.port p).reader.isHeld = false →
      s1 = s.modPort p (fun r => { r with reader := r.reader.age s.now s.clock.tick, nextPass := s.now + 500 }) →
      s2 = (s1.takePhrase p).getD s1 →
      (∀ n t, n < 2 ^ 32 → State.ReadsTo p n s2 t →
        exec (.readerPass p) s = .next (t.modPort p (PortRec.settle t.now))) ∧
      ((∀ n t, n < 2 ^ 32 → ¬State.ReadsTo p n s2 t) → exec (.readerPass p) s = .fault .endlessPass)) ∧
  (∀ (now : StageTime) (tick : Tick) (rd : Reader),
    rd.age now tick = { rd with queue := (rd.age now tick).queue, chainEnd := (rd.age now tick).chainEnd } ∧
    (rd.age now tick).queue.length = rd.queue.length ∧
    (∀ (i : Nat) (q : QueueSlot), rd.queue[i]? = some q →
      (∀ t, q.origin = .atTime t → atOrBefore t now = true →
        (rd.age now tick).queue[i]? = some { q with originPassed := true }) ∧
      ((∀ t, q.origin = .atTime t → atOrBefore t now = false) → (rd.age now tick).queue[i]? = some q)) ∧
    (rd.chainEnd = none → (rd.age now tick).chainEnd = none) ∧
    ∀ e, rd.chainEnd = some e →
      (e.clock = .free → (rd.age now tick).chainEnd = if earlier e.pos now then none else some e) ∧
      (e.clock = .beat → (rd.age now tick).chainEnd = if earlier e.pos tick then none else some e)) ∧
  (∀ (p : Port) (q : QueueSlot) (rest : List QueueSlot) (origin : BitVec 32) (s : State),
    (s.safeLow = true ∨ (s.port p).reader.isHeld = true ∨ (s.port p).reader.current ≠ none ∨
      8 ≤ (s.port p).reader.opened.length ∨ (s.port p).reader.queue = [] → s.takePhrase p = none) ∧
    (s.safeLow = false → (s.port p).reader.isHeld = false → (s.port p).reader.current = none →
      (s.port p).reader.opened.length < 8 → (s.port p).reader.queue = q :: rest →
      (∀ t, q.origin = .atTick t → origin = t) →
      (q.origin = .nextBar → s.clock.tick.toNat + 384 * (s.clock.meter - s.clock.beat) < 2 ^ 32 ∧
        s.clock.beat < s.clock.meter ∧
        origin.toNat = s.clock.tick.toNat - s.clock.tick.toNat % 384 + 384 * (s.clock.meter - s.clock.beat)) →
      (∀ t, q.origin = .atTime t → origin = if q.originPassed then s.now else t) →
      (∀ n, q.origin = .nowPlus n → origin = plus s.now n) →
      (q.origin = .after → (∀ e, (s.port p).reader.chainEnd = some e → origin = e.pos) ∧
        ((s.port p).reader.chainEnd = none → origin = if q.head.clock = .beat then s.clock.tick else s.now)) →
      s.takePhrase p = some (s.modPort p fun r =>
        { r with
          reader := { r.reader with
            state := .playing, queue := rest,
            opened := r.reader.opened ++ [{
              serial := q.serial, clock := q.head.clock, origin := origin, length := q.head.length,
              overhang := q.head.overhang, stopOnFault := q.head.stopOnFault, start := q.start,
              passesLeft := q.head.repeats, pass := 0, addr := q.start + 1, links := 0, reading := .reading,
              outstanding := 0, exceptions := 0 }] },
          unit := if rest = [] then r.unit.raise s.now .queueEmpty else r.unit }))) ∧
  (∀ (p : Port) (o : OpenRec) (cell : Cell) (held : ProgramError → State) (s : State),
    (s.port p).reader.current = some o → (s.port p).reader.isHeld = false →
    cell = decodeCell (readCell (s.port p).mem o.addr) →
    (∀ error, held error = s.modPort p fun r =>
      { r with reader := { r.reader with state := .held (.program error) }, unit := r.unit.raise s.now .held }) →
    (2048 ≤ o.addr → s.readOne p = .stop (held .addressEnd)) ∧
    (o.addr < 2048 → cell = .undefined → s.readOne p = .stop (held .badKind)) ∧
    (∀ target, o.addr < 2048 → cell = .link target →
      (o.links < 16 → s.readOne p = .more (s.modReader p
        (Reader.modRecord o.serial fun x => { x with links := x.links + 1, addr := target }))) ∧
      (16 ≤ o.links → s.readOne p = .stop (held .linkLoop))) ∧
    (o.addr < 2048 → (cell = .endCell ∨ ∃ h, cell = .head h) → o.passesLeft ≠ 0 →
      (s.targetOf o (o.pass + 1) 0 = none → s.readOne p = .stop s) ∧
      ∀ target, s.targetOf o (o.pass + 1) 0 = some target →
        (later target (plus s.now (s.settings.horizon * 1000)) = true → s.readOne p = .stop s) ∧
        (later target (plus s.now (s.settings.horizon * 1000)) = false →
          s.readOne p = .more (s.modReader p (Reader.modRecord o.serial fun x =>
            { x with passesLeft := x.passesLeft - 1, pass := x.pass + 1, addr := x.start + 1, links := 0 })))) ) ∧
  ∀ (now : StageTime) (r : PortRec) (next : PortState),
    next = (if r.reader.current ≠ none ∨ r.reader.queue ≠ [] then .playing
      else if r.reader.opened ≠ [] then .draining else .idle) →
    (r.reader.isHeld = true → r.settle now = r) ∧
    (r.reader.isHeld = false → r.settle now =
      { r with reader := { r.reader with state := next },
               unit := if next = .idle ∧ r.reader.state ≠ .idle then r.unit.raise now .portIdle else r.unit })

/-! ### The strike engine -/

/-- A SYS_SETUP with a value outside its range is refused with RANGE, and then one while an entry, a slot or a frame is
under way, or with a limit below the energised count, with BUSY. An accepted one stores the eleven settings and starts
the timing monitor's window afresh. -/
def Obligations.SysSetupStoresTheSettings : Prop :=
  ∀ (p : Port) (f : SettingsFields) (s : State), s.Taking →
    (settingsInRanges f = true ↔
      (20 ≤ f.horizon.toNat ∧ f.horizon.toNat ≤ 250) ∧ f.tolerance.toNat ≤ 20000 ∧ f.mergeWindow.toNat ≤ 20000 ∧
      (20 ≤ f.reportWindow.toNat ∧ f.reportWindow.toNat ≤ 200) ∧
      (1 ≤ f.supplyLimit.toNat ∧ f.supplyLimit.toNat ≤ 16) ∧ f.accentBoost.toNat ≤ 32 ∧
      f.outlierLimit.toNat ≤ 2000 ∧ (16 ≤ f.highMark.toNat ∧ f.highMark.toNat ≤ 256) ∧
      (f.bitRate.toNat = 1 ∨ f.bitRate.toNat = 2 ∨ f.bitRate.toNat = 4) ∧
      (2 ≤ f.gapBits.toNat ∧ f.gapBits.toNat ≤ 32) ∧ 1 ≤ f.monitorWindow.toNat) ∧
    (settingsInRanges f = false → exec (.sysSetup p f) s = .next (s.reply p (Reply.bare .range))) ∧
    (settingsInRanges f = true → (s.timeline ≠ [] ∨ (∃ c, (s.chan c).slot ≠ none) ∨
        (∃ d, (s.chain d).queue ≠ [] ∨ (s.chain d).sending ≠ none) ∨ f.supplyLimit.toNat < s.energised.length) →
      exec (.sysSetup p f) s = .next (s.reply p (Reply.bare .busy))) ∧
    (settingsInRanges f = true → s.timeline = [] → (∀ c, (s.chan c).slot = none) →
    (∀ d, (s.chain d).queue = [] ∧ (s.chain d).sending = none) → s.energised.length ≤ f.supplyLimit.toNat →
    exec (.sysSetup p f) s = .next (State.reply
      { s with settings := ⟨f.horizon.toNat, f.tolerance.toNat, f.mergeWindow.toNat, f.reportWindow.toNat,
                            f.supplyLimit.toNat, f.accentBoost.toNat, f.outlierLimit.toNat, f.highMark.toNat,
                            f.bitRate.toNat, f.gapBits.toNat, f.monitorWindow.toNat⟩,
               monitor := { s.monitor with nextExpiry := plus s.now (f.monitorWindow.toNat * 1000000) } } p
      (Reply.bare .ok)))

/-- SUPPLY_OK: a fall starts the sag condition and sets the latch, a rise ends the condition and leaves the latch, and
SUPPLY_ACK clears the latch unless the condition holds. Each edge latches SUPPLY in the ports that enable it and select
that edge, and changes nothing else of any port. -/
def Obligations.SagFollowsTheLine : Prop :=
  ∀ s : State, s.resetLow = false →
    (s.supplyLow = false → exec .sagBegin s =
      .next (State.edgeAll { s with supplyLow := true, sagLatch := true } .supply true)) ∧
    (s.supplyLow = true → exec .sagEnd s = .next (State.edgeAll { s with supplyLow := false } .supply false)) ∧
    (∀ p, s.inStartUp = false →
      exec (.supplyAck p) s = .next (State.reply { s with sagLatch := s.supplyLow } p (Reply.bare .ok))) ∧
    ∀ (rising : Bool) (t : State), s.edgeAll .supply rising = t →
      t = { s with ports := t.ports } ∧ ∀ p, t.port p = { s.port p with
        unit := { (s.port p).unit with
          latches := if (s.port p).unit.enables.getLsbD 12 && ((s.port p).unit.falling.getLsbD 2 == !rising)
            then (s.port p).unit.latches ||| BitVec.twoPow 14 12 else (s.port p).unit.latches } }

/-- The entry into the safe state empties the timeline and the energised set, drops every hold, leaves each chain
nothing but the frame in transmission and SAFE_ALL, and leaves every port IDLE or HELD; a scan in progress goes on with
the boards whose PING was delivered, and keeps nothing of another (kept as log 22 says); flight slots, heat and the rest
of the channel table stay. With no work armed an IDLE port stays IDLE, a port that plays or drains is HELD with cause
SAFE, and a HELD port keeps its cause. Each withdrawn reference is given SAFED, head to tail and first to last, before
the ports are held, and the entry latches SAFE where a port enables it and selects the rising edge. The release of SAFE
moves the line and latches SAFE where a port enables it and selects that edge. -/
def Obligations.SafeEntryCancelsAllWork : Prop :=
  ∀ s : State, s.resetLow = false →
    (s.safeLow = false → ∃ t, exec .safeEntry s = .next t ∧ t.safeLow = true ∧ t.timeline = [] ∧ t.energised = [] ∧
      (∀ c, t.chan c = { s.chan c with hold := none }) ∧
      (∀ d, (∀ f start, (s.chain d).sending = some (f, start) →
          (t.chain d).sending = some (f, start) ∧ (t.chain d).queue = [.safeAll] ∧
          (t.chain d).busyUntil = some (plus (plus start s.settings.frameTime) s.settings.frameTime)) ∧
        ((s.chain d).sending = none → (t.chain d).sending = some (.safeAll, s.now) ∧ (t.chain d).queue = [] ∧
          (t.chain d).busyUntil = some (plus s.now s.settings.frameTime)) ∧
        ((s.chain d).scan = none → (t.chain d).scan = none) ∧
        (∀ sc, (s.chain d).scan = some sc → ∃ sc', (t.chain d).scan = some sc' ∧ sc'.start = sc.start ∧
          sc'.kind = sc.kind ∧ ∀ b : Fin 4,
            (sc'.listens[b] = true ↔ sc.listens[b] = true ∧ .ping b ∉ (s.chain d).queue ∧
              ∀ start, (s.chain d).sending ≠ some (.ping b, start)) ∧
            sc'.found[b] = if sc'.listens[b] then sc.found[b] else none) ∧
        t.chain d = { s.chain d with sending := (t.chain d).sending, queue := (t.chain d).queue,
                                     busyUntil := (t.chain d).busyUntil, scan := (t.chain d).scan }) ∧
      (∀ p, (t.port p).reader.state ≠ .playing ∧ (t.port p).reader.state ≠ .draining) ∧
      (s.timeline = [] → ∀ p, (t.port p).reader = { (s.port p).reader with
        state := if (s.port p).reader.state = .playing ∨ (s.port p).reader.state = .draining then .held .safe
        else (s.port p).reader.state }) ∧
      t = { s with safeLow := true, timeline := [], energised := [], channels := t.channels, chains := t.chains,
                   ports := t.ports } ∧
      (∀ p (r : PortRec), r = ((s.timeline.flatMap fun e => e.owners.map fun o => (o, e.outcome .safed none)).foldl
          (fun st x => st.deliver x.1 x.2) (s.withTimeline [])).port p →
        ((r.reader.state = .playing ∨ r.reader.state = .draining) → t.port p = { r with
          reader := { r.reader with state := .held .safe },
          unit := (r.unit.raise s.now .held).edge s.now .safe true }) ∧
        (r.reader.state ≠ .playing → r.reader.state ≠ .draining →
          t.port p = { r with unit := r.unit.edge s.now .safe true })) ∧
      ∀ u : NoticeUnit, u.edge s.now .safe true = { u with
        latches := if u.enables.getLsbD 13 && !u.falling.getLsbD 3 then u.latches ||| BitVec.twoPow 14 13
          else u.latches }) ∧
    (s.safeLow = true → ∃ t, exec .safeRelease s = .next t ∧ t = { s with safeLow := false, ports := t.ports } ∧
      ∀ p, t.port p = { s.port p with
        unit := { (s.port p).unit with
          latches := if (s.port p).unit.enables.getLsbD 13 && (s.port p).unit.falling.getLsbD 3
            then (s.port p).unit.latches ||| BitVec.twoPow 14 13 else (s.port p).unit.latches } })

/-- A cooling step with every hold DOWN or short of its heat limit: each channel's heat falls by the larger of 1 and
floor(H × c / 256), a LIFTED hold adds its level divided by 4 rounded up, and a passed ready-after becomes absent. A
LIFTED channel, the only one, that reaches its limit is dropped by force when its chain has room: HOLD_OFF is placed
with the next tag, the hold is DOWN, the channel leaves the energised set and HOLD_DROPPED is given to its lifting port,
if it has one; with no room it stays LIFTED at its limit and nothing is placed. The other channels cool all the same,
also when the step is commanded before its time (the model's choice, log 5). -/
def Obligations.CoolingStepsCoolAndDrop : Prop :=
  (∀ s : State, s.resetLow = false → s.nextCooling = s.now →
    (∀ c l, (s.chan c).hold = some l → (s.chan c).heat + (l.level + 3) / 4 < (s.chan c).scalars.heatLimit) →
    ∃ t, exec .coolingStep s = .next t ∧
      t = { s with channels := t.channels, nextCooling := s.now + 10000 } ∧
      ∀ c, t.chan c = { s.chan c with
        heat := ((s.chan c).heat - (if (s.chan c).heat = 0 then 0
            else max 1 ((s.chan c).heat * (s.chan c).scalars.coolingRate / 256))) +
          (match (s.chan c).hold with | some l => (l.level + 3) / 4 | none => 0),
        readyAfter := match (s.chan c).readyAfter with
          | some r => if atOrBefore r s.now then none else some r
          | none => none }) ∧
  ∀ (s : State) (c : ChanId) (l : Lift), s.resetLow = false → (s.chan c).hold = some l →
    (∀ e, e ≠ c → (s.chan e).hold = none) →
    (s.chan c).scalars.heatLimit ≤
      ((s.chan c).heat - (if (s.chan c).heat = 0 then 0
        else max 1 ((s.chan c).heat * (s.chan c).scalars.coolingRate / 256))) + (l.level + 3) / 4 →
    ((s.chain (chainOf c)).queue.length < 16 →
    ∃ t, exec .coolingStep s = .next t ∧ (t.chan c).hold = none ∧ (t.chan c).heat = (s.chan c).scalars.heatLimit ∧
      (t.chan c).tag = (s.chan c).tag + 1 ∧ t.energised = s.energised.filter (fun m => m.chan != c) ∧
      t.chain (chainOf c) = (s.chain (chainOf c)).place s.now s.settings.frameTime
        (.holdOff (boardOf c) (outputOf c) (s.chan c).tag) ∧
      (∀ d, d ≠ chainOf c → t.chain d = s.chain d) ∧ t.timeline = s.timeline ∧
      t.chan c = { s.chan c with
        hold := none, heat := (s.chan c).scalars.heatLimit, tag := (s.chan c).tag + 1,
        readyAfter := (s.chan c).readyAfter.filter fun r => !atOrBefore r s.now } ∧
      s.OthersCool c t ∧
      t = { s with
        channels := t.channels, chains := t.chains, energised := t.energised, ports := t.ports,
        nextCooling := if atOrBefore s.nextCooling s.now then s.nextCooling + 10000 else s.nextCooling } ∧
      (l.port = none → t.ports = s.ports) ∧
      ∀ p, l.port = some p →
        t.ports = (s.deliver (OwnerRef.bare p) (OutcomeData.plain .holdDropped (some c))).ports) ∧
    (16 ≤ (s.chain (chainOf c)).queue.length → ∃ t, exec .coolingStep s = .next t ∧
      t.chan c = { s.chan c with
        heat := (s.chan c).scalars.heatLimit,
        readyAfter := (s.chan c).readyAfter.filter fun r => !atOrBefore r s.now } ∧
      s.OthersCool c t ∧ t = { s with
        channels := t.channels,
        nextCooling := if atOrBefore s.nextCooling s.now then s.nextCooling + 10000 else s.nextCooling })

/-! ### The drive chains -/

/-- An accepted CHAIN_SCAN starts a REQUEST scan now with four PINGs, the first in transmission at once. A chain number
above 3 is refused with RANGE, then any with SAFE while SAFE is asserted, and then one with BUSY while the chain is
being scanned, has a busy channel, a queued frame or a frame in transmission. -/
def Obligations.ChainScanPingsTheBoards : Prop :=
  ∀ (p : Port) (d : ChainId) (s : State), s.Taking →
    (∀ n : Byte, 3 < n.toNat → exec (.chainScan p n) s = .next (s.reply p (Reply.bare .range))) ∧
    (s.safeLow = true → exec (.chainScan p (BitVec.ofNat 8 d.val)) s = .next (s.reply p (Reply.bare .safe))) ∧
    (s.safeLow = false → ((s.chain d).scan ≠ none ∨ (∃ c, chainOf c = d ∧ s.channelBusy c = true) ∨
        (s.chain d).queue ≠ [] ∨ (s.chain d).sending ≠ none) →
      exec (.chainScan p (BitVec.ofNat 8 d.val)) s = .next (s.reply p (Reply.bare .busy))) ∧
    (s.safeLow = false → (s.chain d).scan = none →
    (∀ c, chainOf c = d → s.channelBusy c = false) → (s.chain d).queue = [] → (s.chain d).sending = none →
    exec (.chainScan p (BitVec.ofNat 8 d.val)) s =
      .next ((s.modChain d fun ch =>
        { ch with scan := some ⟨s.now, .request, Vector.replicate 4 none, Vector.replicate 4 true⟩,
                  sending := some (.ping 0, s.now), queue := [.ping 1, .ping 2, .ping 3],
                  busyUntil := some (plus s.now (4 * s.settings.frameTime)) }).reply p (Reply.bare .ok)))

/-- When the frame in transmission ends it is delivered; the head of the queue follows at once, and an empty queue
leaves the transmitter IDLE with busy-until absent. -/
def Obligations.FramesFollowOneAnother : Prop :=
  ∀ (d : ChainId) (f : DriveFrame) (start : StageTime) (s : State), s.resetLow = false →
    (s.chain d).sending = some (f, start) → s.now = plus start s.settings.frameTime →
    ((s.chain d).queue = [] → exec (.frameEnd d) s = .next (s.modChain d fun ch =>
      { ch with sending := none, busyUntil := none, lastSent := some f.word })) ∧
    ∀ g rest, (s.chain d).queue = g :: rest → exec (.frameEnd d) s = .next (s.modChain d fun ch =>
      { ch with sending := some (g, s.now), queue := rest, lastSent := some f.word })

/-- A drive frame's word: kind in bits 31 to 29, board in 28 and 27, output in 26 to 24, tag in 23 and 22, value in 21
to 8, and in bits 7 to 0 the CRC-8 of the three upper bytes. A report frame with a good check is a CONTACT where bit 31
is set and is of the kind in bits 30 to 28 otherwise, with its fields where the layout puts them; 0, 6 and 7 name no
kind. -/
def Obligations.DriveFramesAreLaidOut : Prop :=
  (∀ (b : Fin 4) (o : Fin 8) (tag : BitVec 2) (value : Nat), value < 16384 →
    (∀ w, w = (DriveFrame.fire b o tag value).word →
      w.extractLsb' 29 3 = 1 ∧ (w.extractLsb' 27 2).toNat = b.val ∧ (w.extractLsb' 24 3).toNat = o.val ∧
      w.extractLsb' 22 2 = tag ∧ (w.extractLsb' 8 14).toNat = value) ∧
    (∀ w, w = (DriveFrame.holdOn b o tag value).word →
      w.extractLsb' 29 3 = 2 ∧ (w.extractLsb' 27 2).toNat = b.val ∧ (w.extractLsb' 24 3).toNat = o.val ∧
      w.extractLsb' 22 2 = tag ∧ (w.extractLsb' 8 14).toNat = value) ∧
    (∀ w, w = (DriveFrame.holdOff b o tag).word →
      w.extractLsb' 29 3 = 3 ∧ (w.extractLsb' 27 2).toNat = b.val ∧ (w.extractLsb' 24 3).toNat = o.val ∧
      w.extractLsb' 22 2 = tag ∧ w.extractLsb' 8 14 = 0) ∧
    (∀ w, w = (DriveFrame.ping b).word →
      w.extractLsb' 29 3 = 4 ∧ (w.extractLsb' 27 2).toNat = b.val ∧ w.extractLsb' 8 19 = 0) ∧
    (∀ w, w = DriveFrame.safeAll.word → w.extractLsb' 29 3 = 7 ∧ w.extractLsb' 8 21 = 0) ∧
    ∀ (f : DriveFrame) (w : BitVec 32), w = f.word →
      w.extractLsb' 0 8 = crc8 [w.extractLsb' 24 8, w.extractLsb' 16 8, w.extractLsb' 8 8]) ∧
  ∀ (w : BitVec 32) (b : Fin 4) (o : Fin 8),
    crc8 [w.extractLsb' 24 8, w.extractLsb' 16 8, w.extractLsb' 8 8] = w.extractLsb' 0 8 →
    (w.msb = true → b.val = (w.extractLsb' 29 2).toNat → o.val = (w.extractLsb' 26 3).toNat →
      decodeReport w = some (.report (.contact (w.extractLsb' 24 2) (w.extractLsb' 8 16).toNat) b o)) ∧
    (w.msb = false → b.val = (w.extractLsb' 26 2).toNat → o.val = (w.extractLsb' 23 3).toNat →
      (w.extractLsb' 28 3 = 1 → decodeReport w = some (.report (.noContact (w.extractLsb' 21 2)) b o)) ∧
      (w.extractLsb' 28 3 = 2 → decodeReport w = some (.report (.coilOpen (w.extractLsb' 21 2)) b o)) ∧
      (w.extractLsb' 28 3 = 3 → decodeReport w = some (.report (.coilShort (w.extractLsb' 21 2)) b o)) ∧
      (w.extractLsb' 28 3 = 4 → decodeReport w = some (.report .jam b o)) ∧
      (w.extractLsb' 28 3 = 5 → decodeReport w = some (.hello b (w.extractLsb' 8 8))) ∧
      (w.extractLsb' 28 3 ∈ [(0 : BitVec 3), 6, 7] → decodeReport w = none))

/-- The receiver's cases: a bad check or an unknown kind counts a check error, a HELLO goes to the scan in progress and
is discarded when there is none, a report is queued while there is room, and is lost with the overflow latch set
otherwise (R144, R147). That a scan listens for some boards only, so that the HELLO of another is discarded, is the
model's reading of R148 and R151 beside R147 (log 22). -/
def Obligations.ReportsAreReceived : Prop :=
  ∀ (d : ChainId) (word : BitVec 32) (s : State), s.resetLow = false →
    ((crc8 [word.extractLsb' 24 8, word.extractLsb' 16 8, word.extractLsb' 8 8] ≠ word.extractLsb' 0 8 ∨
        (word.msb = false ∧ word.extractLsb' 28 3 ∈ [(0 : BitVec 3), 6, 7])) →
      exec (.reportReceive d word) s =
        .next (s.modChain d fun ch => { ch with checkErrors := min (ch.checkErrors + 1) (max ch.checkErrors 65535) })) ∧
    (∀ board mask, decodeReport word = some (.hello board mask) →
      ((s.chain d).scan = none → exec (.reportReceive d word) s = .next s) ∧
      ∀ sc, (s.chain d).scan = some sc →
        (sc.listens[board] = true → exec (.reportReceive d word) s = .next (s.modChain d fun ch =>
          { ch with scan := some { sc with found := sc.found.set board.val (some mask) } })) ∧
        (sc.listens[board] = false → exec (.reportReceive d word) s = .next s)) ∧
    ∀ kind board output, decodeReport word = some (.report kind board output) →
      ((s.chain d).reports.length < 16 → exec (.reportReceive d word) s =
        .next (s.modChain d fun ch => { ch with reports := ch.reports ++ [⟨kind, board, output, s.now⟩] })) ∧
      (16 ≤ (s.chain d).reports.length → exec (.reportReceive d word) s =
        .next (s.modChain d fun ch => { ch with overflow := true, lost := min (ch.lost + 1) (max ch.lost 65535) }))

/-- Two milliseconds after its start a scan ends: the collected boards become the present boards, and every channel of
the chain that is not FAULTED is settled. -/
def Obligations.ScansSettleTheirChannels : Prop :=
  ∀ (d : ChainId) (sc : Scan) (s : State), s.resetLow = false → (s.chain d).scan = some sc →
    s.now = plus sc.start 2000 →
    ∃ t, exec (.scanEnd d) s = .next t ∧ t.chain d = { s.chain d with boards := sc.found, scan := none } ∧
      (∀ e, e ≠ d → t.chain e = s.chain e) ∧
      (∀ c, chainOf c ≠ d ∨ (s.chan c).presence = .faulted → t.chan c = s.chan c) ∧
      (∀ c, chainOf c = d → (s.chan c).presence ≠ .faulted →
        t.chan c = (s.chan c).settle (sc.found[boardOf c]) (outputOf c)) ∧
      t = { s with channels := t.channels, chains := t.chains }

/-! ### Launch -/

/-- A STRIKE entry at the head, due, on a channel whose slot is free and whose ready-after is absent or past, with
supply, headroom and queue room, launches: the FIRE frame is placed, the flight slot filled, heat, ready-after, tag and
strike count moved, the channel energised, the lateness sampled, and the entry gone. A channel that is a strike member
already needs no place in the energised set, and keeps the later of its two end times. -/
def Obligations.StrokesLaunch : Prop :=
  ∀ (e : Entry) (rest : List Entry) (c : ChanId) (fig : Figures) (s : State), s.resetLow = false →
    s.timeline = e :: rest → e.send = s.now → e.action = .strike c fig → s.channelCheck c .strike = none →
    (s.chan c).slot = none → (∀ r, (s.chan c).readyAfter = some r → atOrBefore r s.now = true) → s.supplyLow = false →
    (s.energised.length < s.settings.supplyLimit ∨ strikeTill s.energised c ≠ none) →
    fig.pulse ≤ (s.chan c).scalars.heatLimit - (s.chan c).heat → (s.chain (chainOf c)).queue.length < 16 →
    ∃ t start launch, start = (match (s.chain (chainOf c)).busyUntil with
        | some b => laterOf s.now b | none => s.now) ∧ launch = plus start s.settings.frameTime ∧
      exec .presentation s = .next t ∧ t.timeline = rest ∧
      t.chain (chainOf c) = (s.chain (chainOf c)).place s.now s.settings.frameTime
        (.fire (boardOf c) (outputOf c) (s.chan c).tag fig.pulse) ∧
      t.chan c = { s.chan c with
        tag := (s.chan c).tag + 1, strikes := (s.chan c).strikes + 1, heat := (s.chan c).heat + fig.pulse,
        readyAfter := some (plus launch ((s.chan c).scalars.recovery * 1000)),
        slot := some { tag := (s.chan c).tag, owners := e.owners, launch := launch, fig := fig, target := e.target,
                       lateness := since e.ideal start, merged := e.merged, retimed := e.retimed,
                       immediate := e.immediate, degraded := false,
                       deadline := plus launch (s.settings.reportWindow * 1000) } } ∧
      (∀ m, m ∈ t.energised ↔ (m ∈ s.energised ∧ m.chan ≠ c) ∨ m = ⟨c, some (match strikeTill s.energised c with
        | some till => laterOf till (plus launch (fig.pulse * 10)) | none => plus launch (fig.pulse * 10))⟩) ∧
      t.monitor = s.monitor.sampleLateness (since e.ideal start) ∧
      (∀ a, a ≠ c → t.chan a = s.chan a) ∧ (∀ d, d ≠ chainOf c → t.chain d = s.chain d) ∧
      t = { s with timeline := rest, chains := t.chains, channels := t.channels, energised := t.energised,
                   monitor := t.monitor, ports := t.ports }

/-- The heat check cuts a pulse that passes the headroom when the headroom is at least pulse min, the stroke launching
degraded, and drops the entry when it is not. A stroke whose channel is recovering or in flight, an entry whose chain's
queue is full, and a new member over the supply limit, are retimed to the time their check proposes while that stays
within the late tolerance of the ideal send, and are dropped when it does not; a failed channel check, a sag and a
supply limit of holds alone drop their entry. No channel, chain or energised member then changes, and each owner is
given the outcome. -/
def Obligations.ChecksCutRetimeOrDrop : Prop :=
  (∀ (e : Entry) (rest : List Entry) (c : ChanId) (fig : Figures) (s : State), s.resetLow = false →
    s.timeline = e :: rest → e.send = s.now → e.action = .strike c fig → s.channelCheck c .strike = none →
    (s.chan c).slot = none → (s.chan c).readyAfter = none → s.supplyLow = false →
    s.energised.length < s.settings.supplyLimit → (s.chain (chainOf c)).queue.length < 16 →
    (s.chan c).scalars.heatLimit - (s.chan c).heat < fig.pulse → (s.chan c).heat ≤ (s.chan c).scalars.heatLimit →
    ((s.chan c).scalars.pulseMin ≤ (s.chan c).scalars.heatLimit - (s.chan c).heat →
      ∃ t slot, exec .presentation s = .next t ∧ (t.chan c).slot = some slot ∧ slot.degraded = true ∧
        slot.fig = { fig with pulse := (s.chan c).scalars.heatLimit - (s.chan c).heat } ∧
        (t.chan c).heat = (s.chan c).scalars.heatLimit ∧ t.timeline = rest) ∧
    ((s.chan c).scalars.heatLimit - (s.chan c).heat < (s.chan c).scalars.pulseMin →
      exec .presentation s = .next (s.dropEntry e rest .thermal))) ∧
  (∀ (e : Entry) (rest : List Entry) (c : ChanId) (fig : Figures) (ready : StageTime) (s : State), s.resetLow = false →
    s.timeline = e :: rest → e.send = s.now → e.action = .strike c fig → s.channelCheck c .strike = none →
    (s.chan c).slot = none → (s.chan c).readyAfter = some ready → later ready s.now = true →
    ((ready - e.ideal).toNat ≤ s.settings.tolerance →
      exec .presentation s = .next (s.withTimeline (placeEntry { e with send := ready, retimed := true } rest))) ∧
    (s.settings.tolerance < (ready - e.ideal).toNat →
      exec .presentation s = .next (s.dropEntry e rest .recovery))) ∧
  (∀ (e : Entry) (rest : List Entry) (s : State), s.resetLow = false → s.timeline = e :: rest → e.send = s.now →
    (∀ c fig, e.action = .strike c fig →
      (∀ code, s.channelCheck c .strike = some code → exec .presentation s = .next (s.dropEntry e rest code)) ∧
      (s.channelCheck c .strike = none →
        (∀ slot, (s.chan c).slot = some slot →
          ((∀ r, (s.chan c).readyAfter = some r → later r (s.now + 1000) = false) →
            exec .presentation s = .next (s.retime e rest (s.now + 1000) .recovery)) ∧
          ∀ r, (s.chan c).readyAfter = some r → later r s.now = true → later r (s.now + 1000) = true →
            exec .presentation s = .next (s.retime e rest r .recovery)) ∧
        ((s.chan c).slot = none → (∀ r, (s.chan c).readyAfter = some r → atOrBefore r s.now = true) →
          (s.supplyLow = true → exec .presentation s = .next (s.dropEntry e rest .supply)) ∧
          (s.supplyLow = false → s.settings.supplyLimit ≤ s.energised.length → strikeTill s.energised c = none →
            (earliestTill s.energised = none → exec .presentation s = .next (s.dropEntry e rest .supply)) ∧
            ∀ till, earliestTill s.energised = some till → exec .presentation s =
              .next (s.retime e rest (if later till s.now then till else s.now + 1) .supply)) ∧
          (s.supplyLow = false → s.energised.length < s.settings.supplyLimit →
            (fig.pulse ≤ (s.chan c).scalars.heatLimit - (s.chan c).heat ∨
              (s.chan c).scalars.pulseMin ≤ (s.chan c).scalars.heatLimit - (s.chan c).heat) →
            16 ≤ (s.chain (chainOf c)).queue.length →
            exec .presentation s = .next (s.retime e rest (plus s.now s.settings.frameTime) .late))))) ∧
    (∀ c level code, e.action = .lift c level → s.channelCheck c .hold = some code →
      exec .presentation s = .next (s.dropEntry e rest code)) ∧
    (∀ c code, e.action = .drop c → s.channelCheck c .hold = some code →
      exec .presentation s = .next (s.dropEntry e rest code)) ∧
    (∀ c, e.action = .drop c → s.channelCheck c .hold = none → 16 ≤ (s.chain (chainOf c)).queue.length →
      exec .presentation s = .next (s.retime e rest (plus s.now s.settings.frameTime) .late)) ∧
    ∀ c level, e.action = .lift c level → s.channelCheck c .hold = none →
      (s.supplyLow = true → exec .presentation s = .next (s.dropEntry e rest .supply)) ∧
      (s.supplyLow = false → ((s.chan c).hold ≠ none ∨ s.energised.length < s.settings.supplyLimit) →
        16 ≤ (s.chain (chainOf c)).queue.length →
        exec .presentation s = .next (s.retime e rest (plus s.now s.settings.frameTime) .late)) ∧
      (s.supplyLow = false → (s.chan c).hold = none → s.settings.supplyLimit ≤ s.energised.length →
        strikeTill s.energised c = none →
        (earliestTill s.energised = none → exec .presentation s = .next (s.dropEntry e rest .supply)) ∧
        ∀ till, earliestTill s.energised = some till → exec .presentation s =
          .next (s.retime e rest (if later till s.now then till else s.now + 1) .supply))) ∧
  ∀ (e : Entry) (rest : List Entry) (s : State) (code : OutcomeCode),
    s.dropEntry e rest code = (s.withTimeline rest).deliverAll e.owners
      { code := code, chan := e.action.chan, vEff := e.action.vEff, pulse := e.action.pulse, lateness := none,
        landed := none, merged := e.merged, retimed := e.retimed, immediate := e.immediate, degraded := false } ∧
    ∀ proposed,
      ((proposed - e.ideal).toNat ≤ s.settings.tolerance → s.retime e rest proposed code =
        s.withTimeline (placeEntry { e with send := proposed, retimed := true } rest)) ∧
      (s.settings.tolerance < (proposed - e.ideal).toNat → s.retime e rest proposed code = s.dropEntry e rest code)

/-- HOLD_LIFT, HOLD_DROP and MARK entries: a launch places its frame, sets the hold record and the energised set,
samples its lateness and gives HOLD_SENT; a LIFT on a LIFTED channel sets level and lifting port anew and leaves the
energised set; a MARK leaves with no frame and gives MARKED with the MARK flag. That a DROP takes a DOWN channel that is
still a strike member out of the energised set is the model's reading (log 13). -/
def Obligations.HoldsAndMarksComplete : Prop :=
  ∀ (e : Entry) (rest : List Entry) (s : State), s.resetLow = false → s.timeline = e :: rest → e.send = s.now →
    (∀ c level, e.action = .lift c level → s.channelCheck c .hold = none → s.supplyLow = false →
      (s.chan c).hold = none → s.energised.length < s.settings.supplyLimit → (∀ m ∈ s.energised, m.chan ≠ c) →
      (s.chain (chainOf c)).queue.length < 16 →
      ∃ t start, start = (match (s.chain (chainOf c)).busyUntil with | some b => laterOf s.now b | none => s.now) ∧
        exec .presentation s = .next t ∧ t.timeline = rest ∧
        t.chan c = { s.chan c with hold := some ⟨level, e.owners.head?.map OwnerRef.port⟩, tag := (s.chan c).tag + 1 } ∧
        t.chain (chainOf c) = (s.chain (chainOf c)).place s.now s.settings.frameTime
          (.holdOn (boardOf c) (outputOf c) (s.chan c).tag level) ∧
        (∀ m, m ∈ t.energised ↔ m ∈ s.energised ∨ m = ⟨c, none⟩) ∧ (∀ a, a ≠ c → t.chan a = s.chan a) ∧
        (∀ d, d ≠ chainOf c → t.chain d = s.chain d) ∧
        t = { s with timeline := rest, chains := t.chains, channels := t.channels, energised := t.energised,
                     monitor := s.monitor.sampleLateness (since e.ideal start),
                     ports := ((s.withTimeline rest).deliverAll e.owners
                       (e.outcome .holdSent (some (since e.ideal start)))).ports }) ∧
    (∀ c level, e.action = .lift c level → s.channelCheck c .hold = none → s.supplyLow = false →
      (s.chan c).hold ≠ none → (s.chain (chainOf c)).queue.length < 16 →
      ∃ t start, start = (match (s.chain (chainOf c)).busyUntil with | some b => laterOf s.now b | none => s.now) ∧
        exec .presentation s = .next t ∧ t.timeline = rest ∧
        t.chan c = { s.chan c with hold := some ⟨level, e.owners.head?.map OwnerRef.port⟩, tag := (s.chan c).tag + 1 } ∧
        t.chain (chainOf c) = (s.chain (chainOf c)).place s.now s.settings.frameTime
          (.holdOn (boardOf c) (outputOf c) (s.chan c).tag level) ∧
        (∀ a, a ≠ c → t.chan a = s.chan a) ∧ (∀ d, d ≠ chainOf c → t.chain d = s.chain d) ∧
        t = { s with timeline := rest, chains := t.chains, channels := t.channels,
                     monitor := s.monitor.sampleLateness (since e.ideal start),
                     ports := ((s.withTimeline rest).deliverAll e.owners
                       (e.outcome .holdSent (some (since e.ideal start)))).ports }) ∧
    (∀ c, e.action = .drop c → s.channelCheck c .hold = none → (s.chain (chainOf c)).queue.length < 16 →
      ∃ t start, start = (match (s.chain (chainOf c)).busyUntil with | some b => laterOf s.now b | none => s.now) ∧
        exec .presentation s = .next t ∧ t.timeline = rest ∧
        t.chan c = { s.chan c with hold := none, tag := (s.chan c).tag + 1 } ∧
        t.chain (chainOf c) = (s.chain (chainOf c)).place s.now s.settings.frameTime
          (.holdOff (boardOf c) (outputOf c) (s.chan c).tag) ∧
        t.energised = s.energised.filter (fun m => m.chan != c) ∧ (∀ a, a ≠ c → t.chan a = s.chan a) ∧
        (∀ d, d ≠ chainOf c → t.chain d = s.chain d) ∧
        t = { s with timeline := rest, chains := t.chains, channels := t.channels, energised := t.energised,
                     monitor := s.monitor.sampleLateness (since e.ideal start),
                     ports := ((s.withTimeline rest).deliverAll e.owners
                       (e.outcome .holdSent (some (since e.ideal start)))).ports }) ∧
    (e.action = .mark → exec .presentation s =
      .next ((s.withTimeline rest).deliverAll (e.owners.map fun r => { r with mark := true })
        (e.outcome .marked (some (since e.target s.now)))))

/-! ### Reports and the timing monitor -/

/-- A CONTACT taken at its time that matches its slot ends the stroke STRUCK: the slot is absent, the miss count 0, the
last measured flight stored, the knots taught, the landing error sampled; a NO_CONTACT that matches ends it SILENT and
counts a miss, which faults the channel at its miss limit. One that matches no slot, or is for a HOLD channel, is stale
and changes nothing but counts. A report is taken 50 µs after the later of its placing and its chain's previous take,
and is held back before. -/
def Obligations.ContactsFinishStrokes : Prop :=
  (∀ (d : ChainId) (b : Fin 4) (o : Fin 8) (tag : BitVec 2) (flight : Nat) (placed : StageTime) (rest : List Report)
    (s : State), s.resetLow = false → (s.chain d).reports = ⟨.contact tag flight, b, o, placed⟩ :: rest →
    (s.chain d).TakesAt placed s.now → (s.chan (chanAt d b o)).kind ≠ some .hold →
    (∀ slot, (s.chan (chanAt d b o)).slot = some slot → slot.tag = tag →
      ∃ t error, error = (plus slot.launch (flight * 10) - slot.target).toInt ∧ exec (.reportTake d) s = .next t ∧
        (t.chan (chanAt d b o)).slot = none ∧
        (t.chan (chanAt d b o)).misses = 0 ∧ (t.chan (chanAt d b o)).lastFlight = some flight ∧
        (t.chan (chanAt d b o)).presence = (s.chan (chanAt d b o)).presence ∧
        t.chan (chanAt d b o) = Channel.adapt s.settings.outlierLimit slot flight
          { s.chan (chanAt d b o) with slot := none, misses := 0, lastFlight := some flight } ∧
        t.monitor = s.monitor.sampleLanding error ∧
        t.chain d = { s.chain d with reports := rest, lastTake := some s.now } ∧
        (∀ x, x ≠ d → t.chain x = s.chain x) ∧
        (∀ c, c ≠ chanAt d b o → t.chan c = s.chan c) ∧
        t = { s with channels := t.channels, chains := t.chains, monitor := t.monitor,
                     ports := (s.deliverAll slot.owners
                       { code := .struck, chan := some (chanAt d b o), vEff := slot.fig.vEff, pulse := slot.fig.pulse,
                         lateness := some slot.lateness, landed := some (flight, error), merged := slot.merged,
                         retimed := slot.retimed, immediate := slot.immediate, degraded := slot.degraded }).ports }) ∧
    ((∀ slot, (s.chan (chanAt d b o)).slot = some slot → slot.tag ≠ tag) →
      exec (.reportTake d) s = .next (s.modChain d fun ch =>
        { ch with reports := rest, lastTake := some s.now, stale := if ch.stale < 65535 then ch.stale + 1 else ch.stale }))) ∧
  (∀ (d : ChainId) (b : Fin 4) (o : Fin 8) (tag : BitVec 2) (placed : StageTime) (rest : List Report) (c : ChanId)
    (s : State), s.resetLow = false → (s.chain d).reports = ⟨.noContact tag, b, o, placed⟩ :: rest →
    (s.chain d).TakesAt placed s.now → c = chanAt d b o → (s.chan c).kind ≠ some .hold →
    (∀ slot, (s.chan c).slot = some slot → slot.tag = tag →
      ∃ (t : State) (hit : Bool), exec (.reportTake d) s = .next t ∧
        (hit = true ↔ (s.chan c).presence ≠ .faulted ∧ (s.chan c).scalars.missLimit ≤ (t.chan c).misses) ∧
        t.chan c = { s.chan c with
          slot := none, misses := if (s.chan c).misses < 15 then (s.chan c).misses + 1 else (s.chan c).misses,
          presence := if hit then .faulted else (s.chan c).presence,
          cause := if hit then some .misses else (s.chan c).cause } ∧
        t.chain d = { s.chain d with reports := rest, lastTake := some s.now } ∧
        (∀ x, x ≠ d → t.chain x = s.chain x) ∧ (∀ a, a ≠ c → t.chan a = s.chan a) ∧
        t = { s with channels := t.channels, chains := t.chains,
                     ports := ((if hit then s.raiseAll .channelFault else s).deliverAll slot.owners
                       { code := .silent, chan := some c, vEff := slot.fig.vEff, pulse := slot.fig.pulse,
                         lateness := some slot.lateness, landed := none, merged := slot.merged,
                         retimed := slot.retimed, immediate := slot.immediate, degraded := slot.degraded }).ports }) ∧
    ((∀ slot, (s.chan c).slot = some slot → slot.tag ≠ tag) →
      exec (.reportTake d) s = .next (s.modChain d fun ch =>
        { ch with reports := rest, lastTake := some s.now, stale := if ch.stale < 65535 then ch.stale + 1 else ch.stale }))) ∧
  ∀ (d : ChainId) (b : Fin 4) (o : Fin 8) (kind : ReportKind) (placed : StageTime) (rest : List Report) (s : State),
    s.resetLow = false → (s.chain d).reports = ⟨kind, b, o, placed⟩ :: rest →
    ((s.chain d).TakesAt placed s.now → (s.chan (chanAt d b o)).kind = some .hold →
      ((∃ tag flight, kind = .contact tag flight) ∨ ∃ tag, kind = .noContact tag) →
      exec (.reportTake d) s = .next (s.modChain d fun ch =>
        { ch with reports := rest, lastTake := some s.now, stale := if ch.stale < 65535 then ch.stale + 1 else ch.stale })) ∧
    ∀ time, (s.chain d).TakesAt placed time → later time s.now = true → exec (.reportTake d) s = .next s

/-- Learning a flight: a measured flight within the outlier limit moves the two bracketing knots by shares that add up
to the error divided by 2^a, rounded half up, and leaves the other knots; one beyond it only counts an outlier. -/
def Obligations.ContactsTeachTheKnots : Prop :=
  ∀ (limit measured : Nat) (slot : FlightSlot) (ch : Channel), slot.degraded = false → slot.fig.seg ≤ 6 →
    slot.fig.off ≤ 18 →
    (limit < ((measured : Int) - slot.fig.flight).natAbs →
      ch.adapt limit slot measured = { ch with outliers := if ch.outliers < 65535 then ch.outliers + 1 else ch.outliers }) ∧
    (((measured : Int) - slot.fig.flight).natAbs ≤ limit → ch.scalars.adaptShift ≠ 0 →
      ∃ low high : Int,
        low + high = ((measured : Int) - slot.fig.flight + 2 ^ (ch.scalars.adaptShift - 1)) / 2 ^ ch.scalars.adaptShift ∧
        low = ((low + high) * (18 - (slot.fig.off : Int)) + 9) / 18 ∧
        ch.adapt limit slot measured = { ch with knots := (ch.adapt limit slot measured).knots } ∧
        (∀ k : Fin 8, k.val ≠ slot.fig.seg → k.val ≠ slot.fig.seg + 1 →
          (ch.adapt limit slot measured).knots[k] = ch.knots[k]) ∧
        (∀ k : Fin 8, k.val = slot.fig.seg → ((ch.adapt limit slot measured).knots[k]).flight =
          (min 6000 (max 0 ((ch.knots[k].flight : Int) + low))).toNat) ∧
        ∀ k : Fin 8, k.val = slot.fig.seg + 1 → ((ch.adapt limit slot measured).knots[k]).flight =
          (min 6000 (max 0 ((ch.knots[k].flight : Int) + high))).toNat)

/-- A coil fault report, or a JAM, for a HOLD channel faults it, drops its hold, takes it out of the energised set and
raises CHANNEL_FAULT; a coil fault report that matches the slot of another channel faults it, ends its stroke FAULT and
raises CHANNEL_FAULT, and one that matches no slot is stale; a JAM faults a channel that is not HOLD and leaves its
slot. A coil fault of a FAULTED channel keeps its first cause and raises nothing, and a JAM for a FAULTED channel
changes nothing but the report queue, which for a HOLD channel is the model's reading (log 20). -/
def Obligations.FaultReportsFaultTheirChannel : Prop :=
  ∀ (d : ChainId) (b : Fin 4) (o : Fin 8) (tag : BitVec 2) (kind : ReportKind) (placed : StageTime) (rest : List Report)
    (c : ChanId) (s : State), s.resetLow = false → c = chanAt d b o →
    (s.chain d).reports = ⟨kind, b, o, placed⟩ :: rest →
    (s.chain d).TakesAt placed s.now →
    (∀ cause, (kind = .coilOpen tag ∧ cause = .coilOpen ∨ kind = .coilShort tag ∧ cause = .coilShort ∨
        kind = .jam ∧ cause = .jam) → (s.chan c).kind = some .hold → (s.chan c).presence ≠ .faulted →
      ∃ t, exec (.reportTake d) s = .next t ∧
        t.chan c = { s.chan c with presence := .faulted, cause := some cause, hold := none } ∧
        t.energised = s.energised.filter (fun m => m.chan != c) ∧ (∀ a, a ≠ c → t.chan a = s.chan a) ∧
        t.chain d = { s.chain d with reports := rest, lastTake := some s.now } ∧ (∀ x, x ≠ d → t.chain x = s.chain x) ∧
        (∀ p, (s.port p).unit.enabled .channelFault = true → (t.port p).unit.latched .channelFault = true) ∧
        t = { s with channels := t.channels, chains := t.chains, energised := t.energised,
                     ports := (s.raiseAll .channelFault).ports }) ∧
    ((kind = .coilOpen tag ∨ kind = .coilShort tag) → (s.chan c).kind = some .hold → (s.chan c).presence = .faulted →
      exec (.reportTake d) s = .next { (s.modChain d fun ch =>
        { ch with reports := rest, lastTake := some s.now }).modChan c (fun ch => { ch with hold := none }) with
          energised := s.energised.filter fun m => m.chan != c }) ∧
    (∀ slot cause, (kind = .coilOpen tag ∧ cause = .coilOpen ∨ kind = .coilShort tag ∧ cause = .coilShort) →
      (s.chan c).kind ≠ some .hold → (s.chan c).slot = some slot → slot.tag = tag →
      ∃ (t : State) (hit : Bool), exec (.reportTake d) s = .next t ∧ (hit = true ↔ (s.chan c).presence ≠ .faulted) ∧
        t.chan c = { s.chan c with
          slot := none, presence := .faulted, cause := if hit then some cause else (s.chan c).cause } ∧
        t.energised = s.energised ∧ (∀ a, a ≠ c → t.chan a = s.chan a) ∧
        t.chain d = { s.chain d with reports := rest, lastTake := some s.now } ∧ (∀ x, x ≠ d → t.chain x = s.chain x) ∧
        t = { s with channels := t.channels, chains := t.chains,
                     ports := ((if hit then s.raiseAll .channelFault else s).deliverAll slot.owners
                       { code := .fault, chan := some c, vEff := slot.fig.vEff, pulse := slot.fig.pulse,
                         lateness := some slot.lateness, landed := none, merged := slot.merged,
                         retimed := slot.retimed, immediate := slot.immediate, degraded := slot.degraded }).ports }) ∧
    ((kind = .coilOpen tag ∨ kind = .coilShort tag) → (s.chan c).kind ≠ some .hold →
      (∀ slot, (s.chan c).slot = some slot → slot.tag ≠ tag) →
      exec (.reportTake d) s = .next (s.modChain d fun ch => { ch with
        reports := rest, lastTake := some s.now, stale := if ch.stale < 65535 then ch.stale + 1 else ch.stale })) ∧
    (kind = .jam → (s.chan c).kind ≠ some .hold → (s.chan c).presence ≠ .faulted →
      exec (.reportTake d) s = .next (((s.modChain d fun ch =>
        { ch with reports := rest, lastTake := some s.now }).modChan c (fun ch =>
          { ch with presence := .faulted, cause := some .jam })).raiseAll .channelFault)) ∧
    (kind = .jam → (s.chan c).presence = .faulted →
      exec (.reportTake d) s =
        .next (s.modChain d fun ch => { ch with reports := rest, lastTake := some s.now }))

/-- A deadline that comes ends the stroke NO_REPORT: the slot is absent, the miss count rises by 1 to at most 15, and a
channel that is not FAULTED is faulted with MISSES when the count reaches the miss limit. Each owner is given the
outcome. -/
def Obligations.DeadlinesCountMisses : Prop :=
  ∀ (c : ChanId) (slot : FlightSlot) (s : State), s.resetLow = false → (s.chan c).slot = some slot →
    slot.deadline = s.now →
    ∃ t, exec (.deadline c) s = .next t ∧ (t.chan c).slot = none ∧
      (t.chan c).misses = (if (s.chan c).misses < 15 then (s.chan c).misses + 1 else (s.chan c).misses) ∧
      ((s.chan c).presence ≠ .faulted → (s.chan c).scalars.missLimit ≤ (t.chan c).misses →
        (t.chan c).presence = .faulted ∧ (t.chan c).cause = some .misses ∧
        (∀ p, (s.port p).unit.enabled .channelFault = true → (t.port p).unit.latched .channelFault = true)) ∧
      ((s.chan c).presence = .faulted ∨ (t.chan c).misses < (s.chan c).scalars.missLimit →
        (t.chan c).presence = (s.chan c).presence ∧ (t.chan c).cause = (s.chan c).cause) ∧
      t.chan c = { s.chan c with slot := none, misses := (t.chan c).misses, presence := (t.chan c).presence,
                                 cause := (t.chan c).cause } ∧
      (∀ a, a ≠ c → t.chan a = s.chan a) ∧ ∃ raised : State,
        ((s.chan c).presence ≠ .faulted ∧ (s.chan c).scalars.missLimit ≤ (t.chan c).misses →
          raised = s.raiseAll .channelFault) ∧
        ((s.chan c).presence = .faulted ∨ (t.chan c).misses < (s.chan c).scalars.missLimit → raised = s) ∧
        t = { s with channels := t.channels,
                     ports := (raised.deliverAll slot.owners
                       { code := .noReport, chan := some c, vEff := slot.fig.vEff, pulse := slot.fig.pulse,
                         lateness := some slot.lateness, landed := none, merged := slot.merged,
                         retimed := slot.retimed, immediate := slot.immediate, degraded := slot.degraded }).ports }

/-! ### Completions and notices -/

/-- DONE_READ returns and removes the oldest records, at most 12, with the counts; FILTER_SET replaces filter and mark.
In both the rest of the unit changes by the DONE_HIGH edge alone: a level source whose condition changes latches where
it is enabled and selects that edge. An outcome delivered at its port appends its record where the filter and the list
take it and counts it lost where the list is full, raises EXCEPTION and MARK, holds the port of a phrase that stops on
it, and settles the phrase's accounts: a phrase that is done leaves the open list with PHRASE_DONE, and the port
settles. -/
def Obligations.DoneReadAndFilterSet : Prop :=
  (∀ (p : Port) (s : State), s.Taking →
    (∃ t payload, exec (.doneRead p) s = .next (t.reply p ⟨.ok, payload⟩) ∧
      (t.port p).unit.records = (s.port p).unit.records.drop 12 ∧
      t = s.modUnit p (fun u => NoticeUnit.judge s.now .doneHigh (decide (u.mark ≤ u.records.length))
        (decide (u.mark ≤ u.records.length - 12)) { u with records := u.records.drop 12 }) ∧
      payload = [BitVec.ofNat 8 (min (s.port p).unit.records.length 12),
          BitVec.ofNat 8 ((s.port p).unit.records.length - 12)] ++ bytesOf 2 (s.port p).unit.lost ++
        ((s.port p).unit.records.take 12).flatMap Completion.bytes ∧
      payload.length = 4 + 20 * min (s.port p).unit.records.length 12) ∧
    ∀ f mark : Byte, f.toNat ≤ 1 → 1 ≤ mark.toNat → mark.toNat ≤ 64 →
      exec (.filterSet p f mark) s = .next ((s.modUnit p fun u =>
        NoticeUnit.judge s.now .doneHigh (decide (u.mark ≤ u.records.length))
          (decide (mark.toNat ≤ u.records.length))
          { u with filter := if f = 0 then .exceptions else .all, mark := mark.toNat }).reply p (Reply.bare .ok))) ∧
  (∀ (now : StageTime) (u : NoticeUnit) (was is : Bool) (src : Source) (i : Nat),
    (src, i) ∈ [(Source.doneHigh, 0), (.timelineHigh, 1), (.supply, 2), (.safe, 3)] →
    u.judge now src was is = { u with
      latches := if was ≠ is ∧ u.enables.getLsbD src.num = true ∧ u.falling.getLsbD i = was
        then u.latches ||| BitVec.twoPow 14 src.num else u.latches }) ∧
  ∀ (s : State) (ref : OwnerRef) (o : OutcomeData) (r : PortRec) (taken : NoticeUnit),
    r = s.port ref.port → taken = r.unit.take s.now ref o →
    (taken = { r.unit with records := taken.records, lost := taken.lost, latches := taken.latches } ∧
      (r.unit.filter = .exceptions → o.code.isException = false →
        taken.records = r.unit.records ∧ taken.lost = r.unit.lost) ∧
      ((r.unit.filter = .all ∨ o.code.isException = true) →
        (r.unit.records.length < 64 →
          taken.records = r.unit.records ++ [completionOf s.now ref o] ∧ taken.lost = r.unit.lost) ∧
        (64 ≤ r.unit.records.length → taken.records = r.unit.records ∧
          taken.lost = if r.unit.lost < 65535 then r.unit.lost + 1 else r.unit.lost)) ∧
      ∀ j : Nat, j < 14 → (taken.latches.getLsbD j = true ↔ r.unit.latches.getLsbD j = true ∨
        r.unit.enables.getLsbD j = true ∧ (j = 5 ∧ o.code.isException = true ∨ j = 4 ∧ ref.mark = true ∨
          j = 9 ∧ r.unit.falling.getLsbD 0 = false ∧ r.unit.records.length < r.unit.mark ∧
            r.unit.mark ≤ taken.records.length))) ∧
    (ref.phrase = none → s.deliver ref o = s.modPort ref.port fun _ => { r with unit := taken }) ∧
    (∀ ph, ref.phrase = some ph → (∀ x ∈ r.reader.opened, x.serial ≠ ph.serial) →
      s.deliver ref o = s.modPort ref.port fun _ => { r with unit := taken }) ∧
    ∀ ph x (stops : Bool) (opened : List OpenRec) (after : PortRec), ref.phrase = some ph → x ∈ r.reader.opened →
      x.serial = ph.serial → (∀ y ∈ r.reader.opened, y.serial = ph.serial → y = x) →
      (stops = true ↔ (o.code = .fault ∨ o.code = .silent ∨ o.code = .noReport) ∧ x.stopOnFault = true ∧
        r.reader.isHeld = false) →
      opened = r.reader.opened.map (fun y => if y.serial = ph.serial then
        { y with outstanding := y.outstanding - 1,
                 exceptions := if o.code.isException ∧ y.exceptions < 65535 then y.exceptions + 1 else y.exceptions }
        else y) →
      after = { r with
        reader := { r.reader with state := if stops then .held .faultStop else r.reader.state, opened := opened },
        unit := if stops then taken.raise s.now .held else taken } →
      (¬(x.reading ≠ .reading ∧ x.outstanding ≤ 1) → s.deliver ref o = s.modPort ref.port fun _ => after) ∧
      (x.reading ≠ .reading ∧ x.outstanding ≤ 1 → s.deliver ref o = s.modPort ref.port fun _ =>
        PortRec.settle s.now { after with
          reader := { after.reader with opened := opened.filter fun y => y.serial != ph.serial },
          unit := after.unit.raise s.now .phraseDone })

/-- NOTE_MASK, NOTE_EDGE, NOTE_CLEAR and NOTE_FORCE with a selection within range act on the calling port's unit; one
that names a source above 13 or an undefined edge bit is refused with RANGE. A raised source latches only where it is
enabled, BEAT then starting its window of 5 ms, and ATN is asserted while a latch is set, that of BEAT only while its
window runs. -/
def Obligations.NoteRequestsActOnTheUnit : Prop :=
  (∀ (p : Port) (s : State), s.Taking →
    (∀ x : BitVec 16, x.toNat ≤ 16383 →
      exec (.noteMask p x) s = .next ((s.modUnit p fun u =>
        { u with enables := x.setWidth 14, latches := u.latches &&& x.setWidth 14,
                 beatWindow := if x.getLsbD 8 then u.beatWindow else none }).reply p (Reply.bare .ok)) ∧
      exec (.noteClear p x) s = .next ((s.modUnit p fun u =>
        { u with latches := u.latches &&& ~~~(x.setWidth 14),
                 beatWindow := if x.getLsbD 8 then none else u.beatWindow }).reply p (Reply.bare .ok)) ∧
      exec (.noteForce p x) s = .next ((s.modUnit p fun u =>
        { u with latches := u.latches ||| (x.setWidth 14 &&& u.enables),
                 beatWindow := if x.getLsbD 8 && u.enables.getLsbD 8 then some (plus s.now 5000)
                   else u.beatWindow }).reply p (Reply.bare .ok))) ∧
    (∀ x : BitVec 16, 16383 < x.toNat → exec (.noteMask p x) s = .next (s.reply p (Reply.bare .range)) ∧
      exec (.noteClear p x) s = .next (s.reply p (Reply.bare .range)) ∧
      exec (.noteForce p x) s = .next (s.reply p (Reply.bare .range))) ∧
    ∀ x : Byte,
      (x.toNat ≤ 15 → exec (.noteEdge p x) s =
        .next ((s.modUnit p fun u => { u with falling := x.setWidth 4 }).reply p (Reply.bare .ok))) ∧
      (15 < x.toNat → exec (.noteEdge p x) s = .next (s.reply p (Reply.bare .range)))) ∧
  ∀ (now : StageTime) (src : Source) (u : NoticeUnit),
    (u.enables.getLsbD src.num = false → u.raise now src = u) ∧
    (u.enables.getLsbD src.num = true → u.raise now src =
      { u with latches := u.latches ||| BitVec.twoPow 14 src.num,
               beatWindow := if src = .beat then some (now + 5000) else u.beatWindow }) ∧
    (u.atn = true ↔ (∃ i : Nat, i < 14 ∧ i ≠ 8 ∧ u.latches.getLsbD i = true) ∨
      u.latches.getLsbD 8 = true ∧ u.beatWindow ≠ none)

/-! ### Invariants -/

/-- The rate word stays within W_min and W_max, the meter within 1 to 16 and beat-in-bar below it, at every step. -/
def Obligations.ClockStaysLegal : Prop :=
  ∀ s t : State, s.RateKept → s.MeterKept → step s = .next t → t.RateKept ∧ t.MeterKept

/-- Every region stays canonical and within its 2048 cells at every step. -/
def Obligations.MemoryStaysCanonical : Prop :=
  ∀ s t : State, s.MemoryKept → step s = .next t → t.MemoryKept

/-- Every list stays within its capacity and a port has at most one current phrase, at every step. -/
def Obligations.CapacitiesHold : Prop :=
  ∀ s t : State, s.CapacityKept → s.ReadersKept → step s = .next t → t.CapacityKept ∧ t.ReadersKept

/-- The energised count never exceeds the supply limit, every heat stays within its limit, and every flight knot within
6000 pu, at every step. -/
def Obligations.BudgetsHold : Prop :=
  ∀ s t : State, step s = .next t →
    (s.SupplyKept → t.SupplyKept) ∧ (s.HeatKept → t.HeatKept) ∧ (s.KnotsKept → t.KnotsKept)

/-- While SAFE is asserted no frame other than SAFE_ALL waits on a chain, no hold is LIFTED and the timeline holds no
entry, at every step. -/
def Obligations.SafeStateHolds : Prop :=
  ∀ s t : State, s.SafeKept → step s = .next t → t.SafeKept

/-- No two unsent STRIKE entries of one channel come to lie within the merge window of each other, and every entry keeps
1 to 4 owners, at every step. -/
def Obligations.StrokesStayApart : Prop :=
  ∀ s t : State, s.StrokesKept → s.OwnersKept → step s = .next t → t.StrokesKept ∧ t.OwnersKept

/-- Busy-until is always the end of the frame in transmission plus Tf for each frame in the queue, at every step. -/
def Obligations.BusyUntilIsTheQueuesEnd : Prop :=
  ∀ s t : State, s.ChainsKept → step s = .next t → t.ChainsKept

/-- A latch is set only while its source is enabled, at every step. -/
def Obligations.LatchesNeedTheirEnables : Prop :=
  ∀ s t : State, s.LatchesKept → step s = .next t → t.LatchesKept

/-- The fault cause is present exactly while a channel is FAULTED, only a STRIKE channel has an occupied slot, and no
channel of a chain being scanned is LIFTED, at every step. -/
def Obligations.ChannelsStayLegal : Prop :=
  ∀ s t : State, s.CausesKept → s.SlotsKept → s.ScansKept → step s = .next t →
    t.CausesKept ∧ t.SlotsKept ∧ t.ScansKept

/-- All of these hold in the reset state, which is the part while RESET is asserted (log 4). -/
def Obligations.ResetMeetsEveryInvariant : Prop :=
  State.reset.RateKept ∧ State.reset.MeterKept ∧ State.reset.MemoryKept ∧ State.reset.CapacityKept ∧
    State.reset.ReadersKept ∧ State.reset.HeatKept ∧ State.reset.KnotsKept ∧ State.reset.SupplyKept ∧
    State.reset.SafeKept ∧ State.reset.StrokesKept ∧ State.reset.OwnersKept ∧ State.reset.ChainsKept ∧
    State.reset.LatchesKept ∧ State.reset.CausesKept ∧ State.reset.SlotsKept ∧ State.reset.ScansKept
end

