-- ==== Sys2Proof/Laws/State.lean ====
section
/-! SUPPORT. What each named update of State leaves as it was, field by field, and what it puts in its one field. -/

namespace Sys2Proof.Machine

/-! ### modPort -/

@[simp] theorem State.modPort_now (s : State) (p : Port) (f : PortRec → PortRec) : (s.modPort p f).now = s.now := rfl
@[simp] theorem State.modPort_resetLow (s : State) (p : Port) (f : PortRec → PortRec) : (s.modPort p f).resetLow = s.resetLow := rfl
@[simp] theorem State.modPort_safeLow (s : State) (p : Port) (f : PortRec → PortRec) : (s.modPort p f).safeLow = s.safeLow := rfl
@[simp] theorem State.modPort_supplyLow (s : State) (p : Port) (f : PortRec → PortRec) : (s.modPort p f).supplyLow = s.supplyLow := rfl
@[simp] theorem State.modPort_sagLatch (s : State) (p : Port) (f : PortRec → PortRec) : (s.modPort p f).sagLatch = s.sagLatch := rfl
@[simp] theorem State.modPort_clock (s : State) (p : Port) (f : PortRec → PortRec) : (s.modPort p f).clock = s.clock := rfl
@[simp] theorem State.modPort_channels (s : State) (p : Port) (f : PortRec → PortRec) : (s.modPort p f).channels = s.channels := rfl
@[simp] theorem State.modPort_timeline (s : State) (p : Port) (f : PortRec → PortRec) : (s.modPort p f).timeline = s.timeline := rfl
@[simp] theorem State.modPort_energised (s : State) (p : Port) (f : PortRec → PortRec) : (s.modPort p f).energised = s.energised := rfl
@[simp] theorem State.modPort_settings (s : State) (p : Port) (f : PortRec → PortRec) : (s.modPort p f).settings = s.settings := rfl
@[simp] theorem State.modPort_nextCooling (s : State) (p : Port) (f : PortRec → PortRec) : (s.modPort p f).nextCooling = s.nextCooling := rfl
@[simp] theorem State.modPort_chains (s : State) (p : Port) (f : PortRec → PortRec) : (s.modPort p f).chains = s.chains := rfl
@[simp] theorem State.modPort_monitor (s : State) (p : Port) (f : PortRec → PortRec) : (s.modPort p f).monitor = s.monitor := rfl
@[simp] theorem State.modPort_freeCount (s : State) (p : Port) (f : PortRec → PortRec) : (s.modPort p f).freeCount = s.freeCount := rfl
@[simp] theorem State.modPort_pending (s : State) (p : Port) (f : PortRec → PortRec) : (s.modPort p f).pending = s.pending := rfl

/-! ### modPorts -/

@[simp] theorem State.modPorts_now (s : State) (f : PortRec → PortRec) : (s.modPorts f).now = s.now := rfl
@[simp] theorem State.modPorts_resetLow (s : State) (f : PortRec → PortRec) : (s.modPorts f).resetLow = s.resetLow := rfl
@[simp] theorem State.modPorts_safeLow (s : State) (f : PortRec → PortRec) : (s.modPorts f).safeLow = s.safeLow := rfl
@[simp] theorem State.modPorts_supplyLow (s : State) (f : PortRec → PortRec) : (s.modPorts f).supplyLow = s.supplyLow := rfl
@[simp] theorem State.modPorts_sagLatch (s : State) (f : PortRec → PortRec) : (s.modPorts f).sagLatch = s.sagLatch := rfl
@[simp] theorem State.modPorts_clock (s : State) (f : PortRec → PortRec) : (s.modPorts f).clock = s.clock := rfl
@[simp] theorem State.modPorts_channels (s : State) (f : PortRec → PortRec) : (s.modPorts f).channels = s.channels := rfl
@[simp] theorem State.modPorts_timeline (s : State) (f : PortRec → PortRec) : (s.modPorts f).timeline = s.timeline := rfl
@[simp] theorem State.modPorts_energised (s : State) (f : PortRec → PortRec) : (s.modPorts f).energised = s.energised := rfl
@[simp] theorem State.modPorts_settings (s : State) (f : PortRec → PortRec) : (s.modPorts f).settings = s.settings := rfl
@[simp] theorem State.modPorts_nextCooling (s : State) (f : PortRec → PortRec) : (s.modPorts f).nextCooling = s.nextCooling := rfl
@[simp] theorem State.modPorts_chains (s : State) (f : PortRec → PortRec) : (s.modPorts f).chains = s.chains := rfl
@[simp] theorem State.modPorts_monitor (s : State) (f : PortRec → PortRec) : (s.modPorts f).monitor = s.monitor := rfl
@[simp] theorem State.modPorts_freeCount (s : State) (f : PortRec → PortRec) : (s.modPorts f).freeCount = s.freeCount := rfl
@[simp] theorem State.modPorts_pending (s : State) (f : PortRec → PortRec) : (s.modPorts f).pending = s.pending := rfl

/-! ### modChan -/

@[simp] theorem State.modChan_now (s : State) (c : ChanId) (f : Channel → Channel) : (s.modChan c f).now = s.now := rfl
@[simp] theorem State.modChan_resetLow (s : State) (c : ChanId) (f : Channel → Channel) : (s.modChan c f).resetLow = s.resetLow := rfl
@[simp] theorem State.modChan_safeLow (s : State) (c : ChanId) (f : Channel → Channel) : (s.modChan c f).safeLow = s.safeLow := rfl
@[simp] theorem State.modChan_supplyLow (s : State) (c : ChanId) (f : Channel → Channel) : (s.modChan c f).supplyLow = s.supplyLow := rfl
@[simp] theorem State.modChan_sagLatch (s : State) (c : ChanId) (f : Channel → Channel) : (s.modChan c f).sagLatch = s.sagLatch := rfl
@[simp] theorem State.modChan_clock (s : State) (c : ChanId) (f : Channel → Channel) : (s.modChan c f).clock = s.clock := rfl
@[simp] theorem State.modChan_ports (s : State) (c : ChanId) (f : Channel → Channel) : (s.modChan c f).ports = s.ports := rfl
@[simp] theorem State.modChan_timeline (s : State) (c : ChanId) (f : Channel → Channel) : (s.modChan c f).timeline = s.timeline := rfl
@[simp] theorem State.modChan_energised (s : State) (c : ChanId) (f : Channel → Channel) : (s.modChan c f).energised = s.energised := rfl
@[simp] theorem State.modChan_settings (s : State) (c : ChanId) (f : Channel → Channel) : (s.modChan c f).settings = s.settings := rfl
@[simp] theorem State.modChan_nextCooling (s : State) (c : ChanId) (f : Channel → Channel) : (s.modChan c f).nextCooling = s.nextCooling := rfl
@[simp] theorem State.modChan_chains (s : State) (c : ChanId) (f : Channel → Channel) : (s.modChan c f).chains = s.chains := rfl
@[simp] theorem State.modChan_monitor (s : State) (c : ChanId) (f : Channel → Channel) : (s.modChan c f).monitor = s.monitor := rfl
@[simp] theorem State.modChan_freeCount (s : State) (c : ChanId) (f : Channel → Channel) : (s.modChan c f).freeCount = s.freeCount := rfl
@[simp] theorem State.modChan_pending (s : State) (c : ChanId) (f : Channel → Channel) : (s.modChan c f).pending = s.pending := rfl

/-! ### modChain -/

@[simp] theorem State.modChain_now (s : State) (d : ChainId) (f : Chain → Chain) : (s.modChain d f).now = s.now := rfl
@[simp] theorem State.modChain_resetLow (s : State) (d : ChainId) (f : Chain → Chain) : (s.modChain d f).resetLow = s.resetLow := rfl
@[simp] theorem State.modChain_safeLow (s : State) (d : ChainId) (f : Chain → Chain) : (s.modChain d f).safeLow = s.safeLow := rfl
@[simp] theorem State.modChain_supplyLow (s : State) (d : ChainId) (f : Chain → Chain) : (s.modChain d f).supplyLow = s.supplyLow := rfl
@[simp] theorem State.modChain_sagLatch (s : State) (d : ChainId) (f : Chain → Chain) : (s.modChain d f).sagLatch = s.sagLatch := rfl
@[simp] theorem State.modChain_clock (s : State) (d : ChainId) (f : Chain → Chain) : (s.modChain d f).clock = s.clock := rfl
@[simp] theorem State.modChain_channels (s : State) (d : ChainId) (f : Chain → Chain) : (s.modChain d f).channels = s.channels := rfl
@[simp] theorem State.modChain_ports (s : State) (d : ChainId) (f : Chain → Chain) : (s.modChain d f).ports = s.ports := rfl
@[simp] theorem State.modChain_timeline (s : State) (d : ChainId) (f : Chain → Chain) : (s.modChain d f).timeline = s.timeline := rfl
@[simp] theorem State.modChain_energised (s : State) (d : ChainId) (f : Chain → Chain) : (s.modChain d f).energised = s.energised := rfl
@[simp] theorem State.modChain_settings (s : State) (d : ChainId) (f : Chain → Chain) : (s.modChain d f).settings = s.settings := rfl
@[simp] theorem State.modChain_nextCooling (s : State) (d : ChainId) (f : Chain → Chain) : (s.modChain d f).nextCooling = s.nextCooling := rfl
@[simp] theorem State.modChain_monitor (s : State) (d : ChainId) (f : Chain → Chain) : (s.modChain d f).monitor = s.monitor := rfl
@[simp] theorem State.modChain_freeCount (s : State) (d : ChainId) (f : Chain → Chain) : (s.modChain d f).freeCount = s.freeCount := rfl
@[simp] theorem State.modChain_pending (s : State) (d : ChainId) (f : Chain → Chain) : (s.modChain d f).pending = s.pending := rfl

/-! ### modClock -/

@[simp] theorem State.modClock_now (s : State) (f : Clock → Clock) : (s.modClock f).now = s.now := rfl
@[simp] theorem State.modClock_resetLow (s : State) (f : Clock → Clock) : (s.modClock f).resetLow = s.resetLow := rfl
@[simp] theorem State.modClock_safeLow (s : State) (f : Clock → Clock) : (s.modClock f).safeLow = s.safeLow := rfl
@[simp] theorem State.modClock_supplyLow (s : State) (f : Clock → Clock) : (s.modClock f).supplyLow = s.supplyLow := rfl
@[simp] theorem State.modClock_sagLatch (s : State) (f : Clock → Clock) : (s.modClock f).sagLatch = s.sagLatch := rfl
@[simp] theorem State.modClock_channels (s : State) (f : Clock → Clock) : (s.modClock f).channels = s.channels := rfl
@[simp] theorem State.modClock_ports (s : State) (f : Clock → Clock) : (s.modClock f).ports = s.ports := rfl
@[simp] theorem State.modClock_timeline (s : State) (f : Clock → Clock) : (s.modClock f).timeline = s.timeline := rfl
@[simp] theorem State.modClock_energised (s : State) (f : Clock → Clock) : (s.modClock f).energised = s.energised := rfl
@[simp] theorem State.modClock_settings (s : State) (f : Clock → Clock) : (s.modClock f).settings = s.settings := rfl
@[simp] theorem State.modClock_nextCooling (s : State) (f : Clock → Clock) : (s.modClock f).nextCooling = s.nextCooling := rfl
@[simp] theorem State.modClock_chains (s : State) (f : Clock → Clock) : (s.modClock f).chains = s.chains := rfl
@[simp] theorem State.modClock_monitor (s : State) (f : Clock → Clock) : (s.modClock f).monitor = s.monitor := rfl
@[simp] theorem State.modClock_freeCount (s : State) (f : Clock → Clock) : (s.modClock f).freeCount = s.freeCount := rfl
@[simp] theorem State.modClock_pending (s : State) (f : Clock → Clock) : (s.modClock f).pending = s.pending := rfl

/-! ### modReader -/

@[simp] theorem State.modReader_now (s : State) (p : Port) (f : Reader → Reader) : (s.modReader p f).now = s.now := rfl
@[simp] theorem State.modReader_resetLow (s : State) (p : Port) (f : Reader → Reader) : (s.modReader p f).resetLow = s.resetLow := rfl
@[simp] theorem State.modReader_safeLow (s : State) (p : Port) (f : Reader → Reader) : (s.modReader p f).safeLow = s.safeLow := rfl
@[simp] theorem State.modReader_supplyLow (s : State) (p : Port) (f : Reader → Reader) : (s.modReader p f).supplyLow = s.supplyLow := rfl
@[simp] theorem State.modReader_sagLatch (s : State) (p : Port) (f : Reader → Reader) : (s.modReader p f).sagLatch = s.sagLatch := rfl
@[simp] theorem State.modReader_clock (s : State) (p : Port) (f : Reader → Reader) : (s.modReader p f).clock = s.clock := rfl
@[simp] theorem State.modReader_channels (s : State) (p : Port) (f : Reader → Reader) : (s.modReader p f).channels = s.channels := rfl
@[simp] theorem State.modReader_timeline (s : State) (p : Port) (f : Reader → Reader) : (s.modReader p f).timeline = s.timeline := rfl
@[simp] theorem State.modReader_energised (s : State) (p : Port) (f : Reader → Reader) : (s.modReader p f).energised = s.energised := rfl
@[simp] theorem State.modReader_settings (s : State) (p : Port) (f : Reader → Reader) : (s.modReader p f).settings = s.settings := rfl
@[simp] theorem State.modReader_nextCooling (s : State) (p : Port) (f : Reader → Reader) : (s.modReader p f).nextCooling = s.nextCooling := rfl
@[simp] theorem State.modReader_chains (s : State) (p : Port) (f : Reader → Reader) : (s.modReader p f).chains = s.chains := rfl
@[simp] theorem State.modReader_monitor (s : State) (p : Port) (f : Reader → Reader) : (s.modReader p f).monitor = s.monitor := rfl
@[simp] theorem State.modReader_freeCount (s : State) (p : Port) (f : Reader → Reader) : (s.modReader p f).freeCount = s.freeCount := rfl
@[simp] theorem State.modReader_pending (s : State) (p : Port) (f : Reader → Reader) : (s.modReader p f).pending = s.pending := rfl

/-! ### modUnit -/

@[simp] theorem State.modUnit_now (s : State) (p : Port) (f : NoticeUnit → NoticeUnit) : (s.modUnit p f).now = s.now := rfl
@[simp] theorem State.modUnit_resetLow (s : State) (p : Port) (f : NoticeUnit → NoticeUnit) : (s.modUnit p f).resetLow = s.resetLow := rfl
@[simp] theorem State.modUnit_safeLow (s : State) (p : Port) (f : NoticeUnit → NoticeUnit) : (s.modUnit p f).safeLow = s.safeLow := rfl
@[simp] theorem State.modUnit_supplyLow (s : State) (p : Port) (f : NoticeUnit → NoticeUnit) : (s.modUnit p f).supplyLow = s.supplyLow := rfl
@[simp] theorem State.modUnit_sagLatch (s : State) (p : Port) (f : NoticeUnit → NoticeUnit) : (s.modUnit p f).sagLatch = s.sagLatch := rfl
@[simp] theorem State.modUnit_clock (s : State) (p : Port) (f : NoticeUnit → NoticeUnit) : (s.modUnit p f).clock = s.clock := rfl
@[simp] theorem State.modUnit_channels (s : State) (p : Port) (f : NoticeUnit → NoticeUnit) : (s.modUnit p f).channels = s.channels := rfl
@[simp] theorem State.modUnit_timeline (s : State) (p : Port) (f : NoticeUnit → NoticeUnit) : (s.modUnit p f).timeline = s.timeline := rfl
@[simp] theorem State.modUnit_energised (s : State) (p : Port) (f : NoticeUnit → NoticeUnit) : (s.modUnit p f).energised = s.energised := rfl
@[simp] theorem State.modUnit_settings (s : State) (p : Port) (f : NoticeUnit → NoticeUnit) : (s.modUnit p f).settings = s.settings := rfl
@[simp] theorem State.modUnit_nextCooling (s : State) (p : Port) (f : NoticeUnit → NoticeUnit) : (s.modUnit p f).nextCooling = s.nextCooling := rfl
@[simp] theorem State.modUnit_chains (s : State) (p : Port) (f : NoticeUnit → NoticeUnit) : (s.modUnit p f).chains = s.chains := rfl
@[simp] theorem State.modUnit_monitor (s : State) (p : Port) (f : NoticeUnit → NoticeUnit) : (s.modUnit p f).monitor = s.monitor := rfl
@[simp] theorem State.modUnit_freeCount (s : State) (p : Port) (f : NoticeUnit → NoticeUnit) : (s.modUnit p f).freeCount = s.freeCount := rfl
@[simp] theorem State.modUnit_pending (s : State) (p : Port) (f : NoticeUnit → NoticeUnit) : (s.modUnit p f).pending = s.pending := rfl

/-! ### modLink -/

@[simp] theorem State.modLink_now (s : State) (p : Port) (f : Link → Link) : (s.modLink p f).now = s.now := rfl
@[simp] theorem State.modLink_resetLow (s : State) (p : Port) (f : Link → Link) : (s.modLink p f).resetLow = s.resetLow := rfl
@[simp] theorem State.modLink_safeLow (s : State) (p : Port) (f : Link → Link) : (s.modLink p f).safeLow = s.safeLow := rfl
@[simp] theorem State.modLink_supplyLow (s : State) (p : Port) (f : Link → Link) : (s.modLink p f).supplyLow = s.supplyLow := rfl
@[simp] theorem State.modLink_sagLatch (s : State) (p : Port) (f : Link → Link) : (s.modLink p f).sagLatch = s.sagLatch := rfl
@[simp] theorem State.modLink_clock (s : State) (p : Port) (f : Link → Link) : (s.modLink p f).clock = s.clock := rfl
@[simp] theorem State.modLink_channels (s : State) (p : Port) (f : Link → Link) : (s.modLink p f).channels = s.channels := rfl
@[simp] theorem State.modLink_timeline (s : State) (p : Port) (f : Link → Link) : (s.modLink p f).timeline = s.timeline := rfl
@[simp] theorem State.modLink_energised (s : State) (p : Port) (f : Link → Link) : (s.modLink p f).energised = s.energised := rfl
@[simp] theorem State.modLink_settings (s : State) (p : Port) (f : Link → Link) : (s.modLink p f).settings = s.settings := rfl
@[simp] theorem State.modLink_nextCooling (s : State) (p : Port) (f : Link → Link) : (s.modLink p f).nextCooling = s.nextCooling := rfl
@[simp] theorem State.modLink_chains (s : State) (p : Port) (f : Link → Link) : (s.modLink p f).chains = s.chains := rfl
@[simp] theorem State.modLink_monitor (s : State) (p : Port) (f : Link → Link) : (s.modLink p f).monitor = s.monitor := rfl
@[simp] theorem State.modLink_freeCount (s : State) (p : Port) (f : Link → Link) : (s.modLink p f).freeCount = s.freeCount := rfl
@[simp] theorem State.modLink_pending (s : State) (p : Port) (f : Link → Link) : (s.modLink p f).pending = s.pending := rfl

/-! ### reply -/

@[simp] theorem State.reply_now (s : State) (p : Port) (r : Reply) : (s.reply p r).now = s.now := rfl
@[simp] theorem State.reply_resetLow (s : State) (p : Port) (r : Reply) : (s.reply p r).resetLow = s.resetLow := rfl
@[simp] theorem State.reply_safeLow (s : State) (p : Port) (r : Reply) : (s.reply p r).safeLow = s.safeLow := rfl
@[simp] theorem State.reply_supplyLow (s : State) (p : Port) (r : Reply) : (s.reply p r).supplyLow = s.supplyLow := rfl
@[simp] theorem State.reply_sagLatch (s : State) (p : Port) (r : Reply) : (s.reply p r).sagLatch = s.sagLatch := rfl
@[simp] theorem State.reply_clock (s : State) (p : Port) (r : Reply) : (s.reply p r).clock = s.clock := rfl
@[simp] theorem State.reply_channels (s : State) (p : Port) (r : Reply) : (s.reply p r).channels = s.channels := rfl
@[simp] theorem State.reply_timeline (s : State) (p : Port) (r : Reply) : (s.reply p r).timeline = s.timeline := rfl
@[simp] theorem State.reply_energised (s : State) (p : Port) (r : Reply) : (s.reply p r).energised = s.energised := rfl
@[simp] theorem State.reply_settings (s : State) (p : Port) (r : Reply) : (s.reply p r).settings = s.settings := rfl
@[simp] theorem State.reply_nextCooling (s : State) (p : Port) (r : Reply) : (s.reply p r).nextCooling = s.nextCooling := rfl
@[simp] theorem State.reply_chains (s : State) (p : Port) (r : Reply) : (s.reply p r).chains = s.chains := rfl
@[simp] theorem State.reply_monitor (s : State) (p : Port) (r : Reply) : (s.reply p r).monitor = s.monitor := rfl
@[simp] theorem State.reply_freeCount (s : State) (p : Port) (r : Reply) : (s.reply p r).freeCount = s.freeCount := rfl
@[simp] theorem State.reply_pending (s : State) (p : Port) (r : Reply) : (s.reply p r).pending = s.pending := rfl

/-! ### raise -/

@[simp] theorem State.raise_now (s : State) (p : Port) (src : Source) : (s.raise p src).now = s.now := rfl
@[simp] theorem State.raise_resetLow (s : State) (p : Port) (src : Source) : (s.raise p src).resetLow = s.resetLow := rfl
@[simp] theorem State.raise_safeLow (s : State) (p : Port) (src : Source) : (s.raise p src).safeLow = s.safeLow := rfl
@[simp] theorem State.raise_supplyLow (s : State) (p : Port) (src : Source) : (s.raise p src).supplyLow = s.supplyLow := rfl
@[simp] theorem State.raise_sagLatch (s : State) (p : Port) (src : Source) : (s.raise p src).sagLatch = s.sagLatch := rfl
@[simp] theorem State.raise_clock (s : State) (p : Port) (src : Source) : (s.raise p src).clock = s.clock := rfl
@[simp] theorem State.raise_channels (s : State) (p : Port) (src : Source) : (s.raise p src).channels = s.channels := rfl
@[simp] theorem State.raise_timeline (s : State) (p : Port) (src : Source) : (s.raise p src).timeline = s.timeline := rfl
@[simp] theorem State.raise_energised (s : State) (p : Port) (src : Source) : (s.raise p src).energised = s.energised := rfl
@[simp] theorem State.raise_settings (s : State) (p : Port) (src : Source) : (s.raise p src).settings = s.settings := rfl
@[simp] theorem State.raise_nextCooling (s : State) (p : Port) (src : Source) : (s.raise p src).nextCooling = s.nextCooling := rfl
@[simp] theorem State.raise_chains (s : State) (p : Port) (src : Source) : (s.raise p src).chains = s.chains := rfl
@[simp] theorem State.raise_monitor (s : State) (p : Port) (src : Source) : (s.raise p src).monitor = s.monitor := rfl
@[simp] theorem State.raise_freeCount (s : State) (p : Port) (src : Source) : (s.raise p src).freeCount = s.freeCount := rfl
@[simp] theorem State.raise_pending (s : State) (p : Port) (src : Source) : (s.raise p src).pending = s.pending := rfl

/-! ### raiseAll -/

@[simp] theorem State.raiseAll_now (s : State) (src : Source) : (s.raiseAll src).now = s.now := rfl
@[simp] theorem State.raiseAll_resetLow (s : State) (src : Source) : (s.raiseAll src).resetLow = s.resetLow := rfl
@[simp] theorem State.raiseAll_safeLow (s : State) (src : Source) : (s.raiseAll src).safeLow = s.safeLow := rfl
@[simp] theorem State.raiseAll_supplyLow (s : State) (src : Source) : (s.raiseAll src).supplyLow = s.supplyLow := rfl
@[simp] theorem State.raiseAll_sagLatch (s : State) (src : Source) : (s.raiseAll src).sagLatch = s.sagLatch := rfl
@[simp] theorem State.raiseAll_clock (s : State) (src : Source) : (s.raiseAll src).clock = s.clock := rfl
@[simp] theorem State.raiseAll_channels (s : State) (src : Source) : (s.raiseAll src).channels = s.channels := rfl
@[simp] theorem State.raiseAll_timeline (s : State) (src : Source) : (s.raiseAll src).timeline = s.timeline := rfl
@[simp] theorem State.raiseAll_energised (s : State) (src : Source) : (s.raiseAll src).energised = s.energised := rfl
@[simp] theorem State.raiseAll_settings (s : State) (src : Source) : (s.raiseAll src).settings = s.settings := rfl
@[simp] theorem State.raiseAll_nextCooling (s : State) (src : Source) : (s.raiseAll src).nextCooling = s.nextCooling := rfl
@[simp] theorem State.raiseAll_chains (s : State) (src : Source) : (s.raiseAll src).chains = s.chains := rfl
@[simp] theorem State.raiseAll_monitor (s : State) (src : Source) : (s.raiseAll src).monitor = s.monitor := rfl
@[simp] theorem State.raiseAll_freeCount (s : State) (src : Source) : (s.raiseAll src).freeCount = s.freeCount := rfl
@[simp] theorem State.raiseAll_pending (s : State) (src : Source) : (s.raiseAll src).pending = s.pending := rfl

/-! ### edgeAll -/

@[simp] theorem State.edgeAll_now (s : State) (src : Source) (b : Bool) : (s.edgeAll src b).now = s.now := rfl
@[simp] theorem State.edgeAll_resetLow (s : State) (src : Source) (b : Bool) : (s.edgeAll src b).resetLow = s.resetLow := rfl
@[simp] theorem State.edgeAll_safeLow (s : State) (src : Source) (b : Bool) : (s.edgeAll src b).safeLow = s.safeLow := rfl
@[simp] theorem State.edgeAll_supplyLow (s : State) (src : Source) (b : Bool) : (s.edgeAll src b).supplyLow = s.supplyLow := rfl
@[simp] theorem State.edgeAll_sagLatch (s : State) (src : Source) (b : Bool) : (s.edgeAll src b).sagLatch = s.sagLatch := rfl
@[simp] theorem State.edgeAll_clock (s : State) (src : Source) (b : Bool) : (s.edgeAll src b).clock = s.clock := rfl
@[simp] theorem State.edgeAll_channels (s : State) (src : Source) (b : Bool) : (s.edgeAll src b).channels = s.channels := rfl
@[simp] theorem State.edgeAll_timeline (s : State) (src : Source) (b : Bool) : (s.edgeAll src b).timeline = s.timeline := rfl
@[simp] theorem State.edgeAll_energised (s : State) (src : Source) (b : Bool) : (s.edgeAll src b).energised = s.energised := rfl
@[simp] theorem State.edgeAll_settings (s : State) (src : Source) (b : Bool) : (s.edgeAll src b).settings = s.settings := rfl
@[simp] theorem State.edgeAll_nextCooling (s : State) (src : Source) (b : Bool) : (s.edgeAll src b).nextCooling = s.nextCooling := rfl
@[simp] theorem State.edgeAll_chains (s : State) (src : Source) (b : Bool) : (s.edgeAll src b).chains = s.chains := rfl
@[simp] theorem State.edgeAll_monitor (s : State) (src : Source) (b : Bool) : (s.edgeAll src b).monitor = s.monitor := rfl
@[simp] theorem State.edgeAll_freeCount (s : State) (src : Source) (b : Bool) : (s.edgeAll src b).freeCount = s.freeCount := rfl
@[simp] theorem State.edgeAll_pending (s : State) (src : Source) (b : Bool) : (s.edgeAll src b).pending = s.pending := rfl

/-! ### deliver -/

@[simp] theorem State.deliver_now (s : State) (ref : OwnerRef) (o : OutcomeData) : (s.deliver ref o).now = s.now := rfl
@[simp] theorem State.deliver_resetLow (s : State) (ref : OwnerRef) (o : OutcomeData) : (s.deliver ref o).resetLow = s.resetLow := rfl
@[simp] theorem State.deliver_safeLow (s : State) (ref : OwnerRef) (o : OutcomeData) : (s.deliver ref o).safeLow = s.safeLow := rfl
@[simp] theorem State.deliver_supplyLow (s : State) (ref : OwnerRef) (o : OutcomeData) : (s.deliver ref o).supplyLow = s.supplyLow := rfl
@[simp] theorem State.deliver_sagLatch (s : State) (ref : OwnerRef) (o : OutcomeData) : (s.deliver ref o).sagLatch = s.sagLatch := rfl
@[simp] theorem State.deliver_clock (s : State) (ref : OwnerRef) (o : OutcomeData) : (s.deliver ref o).clock = s.clock := rfl
@[simp] theorem State.deliver_channels (s : State) (ref : OwnerRef) (o : OutcomeData) : (s.deliver ref o).channels = s.channels := rfl
@[simp] theorem State.deliver_timeline (s : State) (ref : OwnerRef) (o : OutcomeData) : (s.deliver ref o).timeline = s.timeline := rfl
@[simp] theorem State.deliver_energised (s : State) (ref : OwnerRef) (o : OutcomeData) : (s.deliver ref o).energised = s.energised := rfl
@[simp] theorem State.deliver_settings (s : State) (ref : OwnerRef) (o : OutcomeData) : (s.deliver ref o).settings = s.settings := rfl
@[simp] theorem State.deliver_nextCooling (s : State) (ref : OwnerRef) (o : OutcomeData) : (s.deliver ref o).nextCooling = s.nextCooling := rfl
@[simp] theorem State.deliver_chains (s : State) (ref : OwnerRef) (o : OutcomeData) : (s.deliver ref o).chains = s.chains := rfl
@[simp] theorem State.deliver_monitor (s : State) (ref : OwnerRef) (o : OutcomeData) : (s.deliver ref o).monitor = s.monitor := rfl
@[simp] theorem State.deliver_freeCount (s : State) (ref : OwnerRef) (o : OutcomeData) : (s.deliver ref o).freeCount = s.freeCount := rfl
@[simp] theorem State.deliver_pending (s : State) (ref : OwnerRef) (o : OutcomeData) : (s.deliver ref o).pending = s.pending := rfl

/-! ### withTimeline -/

@[simp] theorem State.withTimeline_now (s : State) (l : List Entry) : (s.withTimeline l).now = s.now := rfl
@[simp] theorem State.withTimeline_resetLow (s : State) (l : List Entry) : (s.withTimeline l).resetLow = s.resetLow := rfl
@[simp] theorem State.withTimeline_safeLow (s : State) (l : List Entry) : (s.withTimeline l).safeLow = s.safeLow := rfl
@[simp] theorem State.withTimeline_supplyLow (s : State) (l : List Entry) : (s.withTimeline l).supplyLow = s.supplyLow := rfl
@[simp] theorem State.withTimeline_sagLatch (s : State) (l : List Entry) : (s.withTimeline l).sagLatch = s.sagLatch := rfl
@[simp] theorem State.withTimeline_clock (s : State) (l : List Entry) : (s.withTimeline l).clock = s.clock := rfl
@[simp] theorem State.withTimeline_channels (s : State) (l : List Entry) : (s.withTimeline l).channels = s.channels := rfl
@[simp] theorem State.withTimeline_energised (s : State) (l : List Entry) : (s.withTimeline l).energised = s.energised := rfl
@[simp] theorem State.withTimeline_settings (s : State) (l : List Entry) : (s.withTimeline l).settings = s.settings := rfl
@[simp] theorem State.withTimeline_nextCooling (s : State) (l : List Entry) : (s.withTimeline l).nextCooling = s.nextCooling := rfl
@[simp] theorem State.withTimeline_chains (s : State) (l : List Entry) : (s.withTimeline l).chains = s.chains := rfl
@[simp] theorem State.withTimeline_monitor (s : State) (l : List Entry) : (s.withTimeline l).monitor = s.monitor := rfl
@[simp] theorem State.withTimeline_freeCount (s : State) (l : List Entry) : (s.withTimeline l).freeCount = s.freeCount := rfl
@[simp] theorem State.withTimeline_pending (s : State) (l : List Entry) : (s.withTimeline l).pending = s.pending := rfl

/-! ### What the updates put in place -/

@[simp] theorem State.modClock_clock (s : State) (f : Clock → Clock) : (s.modClock f).clock = f s.clock := rfl

@[simp] theorem State.withTimeline_timeline (s : State) (l : List Entry) : (s.withTimeline l).timeline = l := rfl

@[simp] theorem State.modPort_port_same (s : State) (p : Port) (f : PortRec → PortRec) :
    (s.modPort p f).port p = f (s.port p) := by
  simp [State.modPort, State.port]

theorem State.modPort_port_other (s : State) (p q : Port) (f : PortRec → PortRec) (h : q ≠ p) :
    (s.modPort p f).port q = s.port q := by
  have h2 : p.val ≠ q.val := fun e => h (Fin.ext e.symm)
  simp [State.modPort, State.port, h2]

theorem State.modPort_port (s : State) (p q : Port) (f : PortRec → PortRec) :
    (s.modPort p f).port q = if q = p then f (s.port p) else s.port q := by
  by_cases h : q = p
  · subst h; simp
  · simp [h, State.modPort_port_other]

@[simp] theorem State.modPorts_port (s : State) (f : PortRec → PortRec) (q : Port) :
    (s.modPorts f).port q = f (s.port q) := by
  simp [State.modPorts, State.port]

@[simp] theorem State.modChan_chan_same (s : State) (c : ChanId) (f : Channel → Channel) :
    (s.modChan c f).chan c = f (s.chan c) := by
  simp [State.modChan, State.chan]

theorem State.modChan_chan_other (s : State) (c e : ChanId) (f : Channel → Channel) (h : e ≠ c) :
    (s.modChan c f).chan e = s.chan e := by
  have h2 : c.val ≠ e.val := fun x => h (Fin.ext x.symm)
  simp [State.modChan, State.chan, h2]

theorem State.modChan_chan (s : State) (c e : ChanId) (f : Channel → Channel) :
    (s.modChan c f).chan e = if e = c then f (s.chan c) else s.chan e := by
  by_cases h : e = c
  · subst h; simp
  · simp [h, State.modChan_chan_other]

@[simp] theorem State.modChain_chain_same (s : State) (d : ChainId) (f : Chain → Chain) :
    (s.modChain d f).chain d = f (s.chain d) := by
  simp [State.modChain, State.chain]

theorem State.modChain_chain_other (s : State) (d e : ChainId) (f : Chain → Chain) (h : e ≠ d) :
    (s.modChain d f).chain e = s.chain e := by
  have h2 : d.val ≠ e.val := fun x => h (Fin.ext x.symm)
  simp [State.modChain, State.chain, h2]

theorem State.modChain_chain (s : State) (d e : ChainId) (f : Chain → Chain) :
    (s.modChain d f).chain e = if e = d then f (s.chain d) else s.chain e := by
  by_cases h : e = d
  · subst h; simp
  · simp [h, State.modChain_chain_other]

/-! ### What the accessors read, where an update does not reach -/


@[simp] theorem State.modChan_port (s : State) (c : ChanId) (f : Channel → Channel) (q : Port) : (s.modChan c f).port q = s.port q := rfl
@[simp] theorem State.modChain_port (s : State) (d : ChainId) (f : Chain → Chain) (q : Port) : (s.modChain d f).port q = s.port q := rfl
@[simp] theorem State.modClock_port (s : State) (f : Clock → Clock) (q : Port) : (s.modClock f).port q = s.port q := rfl
@[simp] theorem State.modPort_chan (s : State) (p : Port) (f : PortRec → PortRec) (e : ChanId) : (s.modPort p f).chan e = s.chan e := rfl
@[simp] theorem State.modPorts_chan (s : State) (f : PortRec → PortRec) (e : ChanId) : (s.modPorts f).chan e = s.chan e := rfl
@[simp] theorem State.modChain_chan (s : State) (d : ChainId) (f : Chain → Chain) (e : ChanId) : (s.modChain d f).chan e = s.chan e := rfl
@[simp] theorem State.modClock_chan (s : State) (f : Clock → Clock) (e : ChanId) : (s.modClock f).chan e = s.chan e := rfl
@[simp] theorem State.modReader_chan (s : State) (p : Port) (f : Reader → Reader) (e : ChanId) : (s.modReader p f).chan e = s.chan e := rfl
@[simp] theorem State.modUnit_chan (s : State) (p : Port) (f : NoticeUnit → NoticeUnit) (e : ChanId) : (s.modUnit p f).chan e = s.chan e := rfl
@[simp] theorem State.modLink_chan (s : State) (p : Port) (f : Link → Link) (e : ChanId) : (s.modLink p f).chan e = s.chan e := rfl
@[simp] theorem State.reply_chan (s : State) (p : Port) (r : Reply) (e : ChanId) : (s.reply p r).chan e = s.chan e := rfl
@[simp] theorem State.raiseAll_chan (s : State) (src : Source) (e : ChanId) : (s.raiseAll src).chan e = s.chan e := rfl
@[simp] theorem State.edgeAll_chan (s : State) (src : Source) (b : Bool) (e : ChanId) : (s.edgeAll src b).chan e = s.chan e := rfl
@[simp] theorem State.deliver_chan (s : State) (ref : OwnerRef) (o : OutcomeData) (e : ChanId) : (s.deliver ref o).chan e = s.chan e := rfl
@[simp] theorem State.withTimeline_chan (s : State) (l : List Entry) (e : ChanId) : (s.withTimeline l).chan e = s.chan e := rfl
@[simp] theorem State.modPort_chain (s : State) (p : Port) (f : PortRec → PortRec) (e : ChainId) : (s.modPort p f).chain e = s.chain e := rfl
@[simp] theorem State.modPorts_chain (s : State) (f : PortRec → PortRec) (e : ChainId) : (s.modPorts f).chain e = s.chain e := rfl
@[simp] theorem State.modChan_chain (s : State) (c : ChanId) (f : Channel → Channel) (e : ChainId) : (s.modChan c f).chain e = s.chain e := rfl
@[simp] theorem State.modClock_chain (s : State) (f : Clock → Clock) (e : ChainId) : (s.modClock f).chain e = s.chain e := rfl
@[simp] theorem State.modReader_chain (s : State) (p : Port) (f : Reader → Reader) (e : ChainId) : (s.modReader p f).chain e = s.chain e := rfl
@[simp] theorem State.modUnit_chain (s : State) (p : Port) (f : NoticeUnit → NoticeUnit) (e : ChainId) : (s.modUnit p f).chain e = s.chain e := rfl
@[simp] theorem State.modLink_chain (s : State) (p : Port) (f : Link → Link) (e : ChainId) : (s.modLink p f).chain e = s.chain e := rfl
@[simp] theorem State.reply_chain (s : State) (p : Port) (r : Reply) (e : ChainId) : (s.reply p r).chain e = s.chain e := rfl
@[simp] theorem State.raiseAll_chain (s : State) (src : Source) (e : ChainId) : (s.raiseAll src).chain e = s.chain e := rfl
@[simp] theorem State.edgeAll_chain (s : State) (src : Source) (b : Bool) (e : ChainId) : (s.edgeAll src b).chain e = s.chain e := rfl
@[simp] theorem State.deliver_chain (s : State) (ref : OwnerRef) (o : OutcomeData) (e : ChainId) : (s.deliver ref o).chain e = s.chain e := rfl
@[simp] theorem State.withTimeline_chain (s : State) (l : List Entry) (e : ChainId) : (s.withTimeline l).chain e = s.chain e := rfl

/-! ### Deliveries to many owners, withdrawal and references -/

/-- A run of deliveries changes the ports alone. -/
theorem State.foldl_deliver_eq {α : Type} (g : α → OwnerRef) (o : α → OutcomeData) (l : List α) (s : State) :
    l.foldl (fun st x => st.deliver (g x) (o x)) s =
      { s with ports := (l.foldl (fun st x => st.deliver (g x) (o x)) s).ports } := by
  induction l generalizing s with
  | nil => rfl
  | cons x xs ih => rw [List.foldl_cons, ih]; rfl

/-- Giving one outcome to many owners changes the ports alone. -/
theorem State.deliverAll_eq (s : State) (owners : List OwnerRef) (o : OutcomeData) :
    s.deliverAll owners o = { s with ports := (s.deliverAll owners o).ports } :=
  State.foldl_deliver_eq (fun r => r) (fun _ => o) owners s

/-- A withdrawal with outcomes changes the ports and the timeline alone. -/
theorem State.withdraw_eq (s : State) (takes : OwnerRef → Bool) (code : OutcomeCode) :
    s.withdraw takes code =
      { s with ports := (s.withdraw takes code).ports, timeline := withdrawFrom takes s.timeline } := by
  exact State.foldl_deliver_eq (fun x : OwnerRef × OutcomeData => x.1) (fun x => x.2)
    (withdrawnOutcomes takes code s.timeline) (s.withTimeline (withdrawFrom takes s.timeline))

/-- A reference made changes the ports alone. -/
theorem State.referenced_eq (s : State) (ref : OwnerRef) :
    s.referenced ref = { s with ports := (s.referenced ref).ports } := by
  unfold State.referenced
  split <;> rfl

@[simp] theorem State.deliverAll_now (s : State) (owners : List OwnerRef) (o : OutcomeData) : (s.deliverAll owners o).now = s.now := by rw [State.deliverAll_eq]
@[simp] theorem State.deliverAll_resetLow (s : State) (owners : List OwnerRef) (o : OutcomeData) : (s.deliverAll owners o).resetLow = s.resetLow := by rw [State.deliverAll_eq]
@[simp] theorem State.deliverAll_safeLow (s : State) (owners : List OwnerRef) (o : OutcomeData) : (s.deliverAll owners o).safeLow = s.safeLow := by rw [State.deliverAll_eq]
@[simp] theorem State.deliverAll_supplyLow (s : State) (owners : List OwnerRef) (o : OutcomeData) : (s.deliverAll owners o).supplyLow = s.supplyLow := by rw [State.deliverAll_eq]
@[simp] theorem State.deliverAll_sagLatch (s : State) (owners : List OwnerRef) (o : OutcomeData) : (s.deliverAll owners o).sagLatch = s.sagLatch := by rw [State.deliverAll_eq]
@[simp] theorem State.deliverAll_clock (s : State) (owners : List OwnerRef) (o : OutcomeData) : (s.deliverAll owners o).clock = s.clock := by rw [State.deliverAll_eq]
@[simp] theorem State.deliverAll_channels (s : State) (owners : List OwnerRef) (o : OutcomeData) : (s.deliverAll owners o).channels = s.channels := by rw [State.deliverAll_eq]
@[simp] theorem State.deliverAll_timeline (s : State) (owners : List OwnerRef) (o : OutcomeData) : (s.deliverAll owners o).timeline = s.timeline := by rw [State.deliverAll_eq]
@[simp] theorem State.deliverAll_energised (s : State) (owners : List OwnerRef) (o : OutcomeData) : (s.deliverAll owners o).energised = s.energised := by rw [State.deliverAll_eq]
@[simp] theorem State.deliverAll_settings (s : State) (owners : List OwnerRef) (o : OutcomeData) : (s.deliverAll owners o).settings = s.settings := by rw [State.deliverAll_eq]
@[simp] theorem State.deliverAll_nextCooling (s : State) (owners : List OwnerRef) (o : OutcomeData) : (s.deliverAll owners o).nextCooling = s.nextCooling := by rw [State.deliverAll_eq]
@[simp] theorem State.deliverAll_chains (s : State) (owners : List OwnerRef) (o : OutcomeData) : (s.deliverAll owners o).chains = s.chains := by rw [State.deliverAll_eq]
@[simp] theorem State.deliverAll_monitor (s : State) (owners : List OwnerRef) (o : OutcomeData) : (s.deliverAll owners o).monitor = s.monitor := by rw [State.deliverAll_eq]
@[simp] theorem State.deliverAll_freeCount (s : State) (owners : List OwnerRef) (o : OutcomeData) : (s.deliverAll owners o).freeCount = s.freeCount := by rw [State.deliverAll_eq]
@[simp] theorem State.deliverAll_pending (s : State) (owners : List OwnerRef) (o : OutcomeData) : (s.deliverAll owners o).pending = s.pending := by rw [State.deliverAll_eq]

@[simp] theorem State.withdraw_now (s : State) (takes : OwnerRef → Bool) (code : OutcomeCode) : (s.withdraw takes code).now = s.now := by rw [State.withdraw_eq]
@[simp] theorem State.withdraw_resetLow (s : State) (takes : OwnerRef → Bool) (code : OutcomeCode) : (s.withdraw takes code).resetLow = s.resetLow := by rw [State.withdraw_eq]
@[simp] theorem State.withdraw_safeLow (s : State) (takes : OwnerRef → Bool) (code : OutcomeCode) : (s.withdraw takes code).safeLow = s.safeLow := by rw [State.withdraw_eq]
@[simp] theorem State.withdraw_supplyLow (s : State) (takes : OwnerRef → Bool) (code : OutcomeCode) : (s.withdraw takes code).supplyLow = s.supplyLow := by rw [State.withdraw_eq]
@[simp] theorem State.withdraw_sagLatch (s : State) (takes : OwnerRef → Bool) (code : OutcomeCode) : (s.withdraw takes code).sagLatch = s.sagLatch := by rw [State.withdraw_eq]
@[simp] theorem State.withdraw_clock (s : State) (takes : OwnerRef → Bool) (code : OutcomeCode) : (s.withdraw takes code).clock = s.clock := by rw [State.withdraw_eq]
@[simp] theorem State.withdraw_channels (s : State) (takes : OwnerRef → Bool) (code : OutcomeCode) : (s.withdraw takes code).channels = s.channels := by rw [State.withdraw_eq]
@[simp] theorem State.withdraw_energised (s : State) (takes : OwnerRef → Bool) (code : OutcomeCode) : (s.withdraw takes code).energised = s.energised := by rw [State.withdraw_eq]
@[simp] theorem State.withdraw_settings (s : State) (takes : OwnerRef → Bool) (code : OutcomeCode) : (s.withdraw takes code).settings = s.settings := by rw [State.withdraw_eq]
@[simp] theorem State.withdraw_nextCooling (s : State) (takes : OwnerRef → Bool) (code : OutcomeCode) : (s.withdraw takes code).nextCooling = s.nextCooling := by rw [State.withdraw_eq]
@[simp] theorem State.withdraw_chains (s : State) (takes : OwnerRef → Bool) (code : OutcomeCode) : (s.withdraw takes code).chains = s.chains := by rw [State.withdraw_eq]
@[simp] theorem State.withdraw_monitor (s : State) (takes : OwnerRef → Bool) (code : OutcomeCode) : (s.withdraw takes code).monitor = s.monitor := by rw [State.withdraw_eq]
@[simp] theorem State.withdraw_freeCount (s : State) (takes : OwnerRef → Bool) (code : OutcomeCode) : (s.withdraw takes code).freeCount = s.freeCount := by rw [State.withdraw_eq]
@[simp] theorem State.withdraw_pending (s : State) (takes : OwnerRef → Bool) (code : OutcomeCode) : (s.withdraw takes code).pending = s.pending := by rw [State.withdraw_eq]

@[simp] theorem State.referenced_now (s : State) (ref : OwnerRef) : (s.referenced ref).now = s.now := by rw [State.referenced_eq]
@[simp] theorem State.referenced_resetLow (s : State) (ref : OwnerRef) : (s.referenced ref).resetLow = s.resetLow := by rw [State.referenced_eq]
@[simp] theorem State.referenced_safeLow (s : State) (ref : OwnerRef) : (s.referenced ref).safeLow = s.safeLow := by rw [State.referenced_eq]
@[simp] theorem State.referenced_supplyLow (s : State) (ref : OwnerRef) : (s.referenced ref).supplyLow = s.supplyLow := by rw [State.referenced_eq]
@[simp] theorem State.referenced_sagLatch (s : State) (ref : OwnerRef) : (s.referenced ref).sagLatch = s.sagLatch := by rw [State.referenced_eq]
@[simp] theorem State.referenced_clock (s : State) (ref : OwnerRef) : (s.referenced ref).clock = s.clock := by rw [State.referenced_eq]
@[simp] theorem State.referenced_channels (s : State) (ref : OwnerRef) : (s.referenced ref).channels = s.channels := by rw [State.referenced_eq]
@[simp] theorem State.referenced_timeline (s : State) (ref : OwnerRef) : (s.referenced ref).timeline = s.timeline := by rw [State.referenced_eq]
@[simp] theorem State.referenced_energised (s : State) (ref : OwnerRef) : (s.referenced ref).energised = s.energised := by rw [State.referenced_eq]
@[simp] theorem State.referenced_settings (s : State) (ref : OwnerRef) : (s.referenced ref).settings = s.settings := by rw [State.referenced_eq]
@[simp] theorem State.referenced_nextCooling (s : State) (ref : OwnerRef) : (s.referenced ref).nextCooling = s.nextCooling := by rw [State.referenced_eq]
@[simp] theorem State.referenced_chains (s : State) (ref : OwnerRef) : (s.referenced ref).chains = s.chains := by rw [State.referenced_eq]
@[simp] theorem State.referenced_monitor (s : State) (ref : OwnerRef) : (s.referenced ref).monitor = s.monitor := by rw [State.referenced_eq]
@[simp] theorem State.referenced_freeCount (s : State) (ref : OwnerRef) : (s.referenced ref).freeCount = s.freeCount := by rw [State.referenced_eq]
@[simp] theorem State.referenced_pending (s : State) (ref : OwnerRef) : (s.referenced ref).pending = s.pending := by rw [State.referenced_eq]

@[simp] theorem State.deliverAll_chan (s : State) (owners : List OwnerRef) (o : OutcomeData) (e : ChanId) : (s.deliverAll owners o).chan e = s.chan e := by rw [State.deliverAll_eq]; rfl
@[simp] theorem State.deliverAll_chain (s : State) (owners : List OwnerRef) (o : OutcomeData) (e : ChainId) : (s.deliverAll owners o).chain e = s.chain e := by rw [State.deliverAll_eq]; rfl
@[simp] theorem State.withdraw_chan (s : State) (takes : OwnerRef → Bool) (code : OutcomeCode) (e : ChanId) : (s.withdraw takes code).chan e = s.chan e := by rw [State.withdraw_eq]; rfl
@[simp] theorem State.withdraw_chain (s : State) (takes : OwnerRef → Bool) (code : OutcomeCode) (e : ChainId) : (s.withdraw takes code).chain e = s.chain e := by rw [State.withdraw_eq]; rfl
@[simp] theorem State.referenced_chan (s : State) (ref : OwnerRef) (e : ChanId) : (s.referenced ref).chan e = s.chan e := by rw [State.referenced_eq]; rfl
@[simp] theorem State.referenced_chain (s : State) (ref : OwnerRef) (e : ChainId) : (s.referenced ref).chain e = s.chain e := by rw [State.referenced_eq]; rfl

@[simp] theorem State.withdraw_timeline (s : State) (takes : OwnerRef → Bool) (code : OutcomeCode) :
    (s.withdraw takes code).timeline = withdrawFrom takes s.timeline := by rw [State.withdraw_eq]

end Sys2Proof.Machine
end

