-- ==== Sys2Proof/Laws/Operations.lean ====
section
/-! SUPPORT. What each shared operation can do, said once: lists, notices, deliveries, offers and takes. -/

namespace Sys2Proof.Machine

/-! ### Lists -/

theorem placeAfter_perm {α : Type} (before : α → Bool) (x : α) (l : List α) :
    (placeAfter before x l).Perm (x :: l) := by
  induction l with
  | nil => exact List.Perm.refl _
  | cons y ys ih =>
    unfold placeAfter
    split
    · exact (List.Perm.cons y ih).trans (List.Perm.swap x y ys)
    · exact List.Perm.refl _

@[simp] theorem placeAfter_length {α : Type} (before : α → Bool) (x : α) (l : List α) :
    (placeAfter before x l).length = l.length + 1 :=
  (placeAfter_perm before x l).length_eq

theorem mem_placeAfter {α : Type} {before : α → Bool} {x y : α} {l : List α} :
    y ∈ placeAfter before x l ↔ y = x ∨ y ∈ l := by
  rw [(placeAfter_perm before x l).mem_iff, List.mem_cons]

/-- A list split at the first element that fits. -/
theorem splitFirst_some {α : Type} {fits : α → Bool} {l pre post : List α} {x : α}
    (h : splitFirst fits l = some (pre, x, post)) :
    l = pre ++ x :: post ∧ fits x = true ∧ ∀ y ∈ pre, fits y = false := by
  induction l generalizing pre x post with
  | nil => simp [splitFirst] at h
  | cons y ys ih =>
    unfold splitFirst at h
    split at h
    · simp only [Option.some.injEq, Prod.mk.injEq] at h
      obtain ⟨rfl, rfl, rfl⟩ := h
      exact ⟨rfl, by assumption, by simp⟩
    · split at h
      · rename_i heq
        simp only [Option.some.injEq, Prod.mk.injEq] at h
        obtain ⟨rfl, rfl, rfl⟩ := h
        obtain ⟨h1, h2, h3⟩ := ih heq
        refine ⟨by rw [h1]; rfl, h2, ?_⟩
        intro z hz
        rcases List.mem_cons.mp hz with rfl | hz
        · simpa using ‹¬fits z = true›
        · exact h3 z hz
      · cases h

/-- No element fits where no split is found. -/
theorem splitFirst_none {α : Type} {fits : α → Bool} {l : List α} (h : splitFirst fits l = none) :
    ∀ y ∈ l, fits y = false := by
  induction l with
  | nil => simp
  | cons y ys ih =>
    unfold splitFirst at h
    split at h
    · cases h
    · split at h
      · cases h
      · rename_i heq
        intro z hz
        rcases List.mem_cons.mp hz with rfl | hz
        · simpa using ‹¬fits z = true›
        · exact ih heq z hz

theorem satSucc_le (n cap : Nat) (h : n ≤ cap) : satSucc n cap ≤ cap := by
  unfold satSucc; split <;> omega

theorem clampNat_range {lo hi : Nat} (h : lo ≤ hi) (n : Nat) : lo ≤ clampNat lo hi n ∧ clampNat lo hi n ≤ hi := by
  unfold clampNat; split
  · omega
  · split <;> omega

/-! ### Notices -/

/-- A notice unit after noticings: latches may have been set, each of an enabled source, and the BEAT window may have
been started; nothing else has changed. -/
structure NoticeUnit.Noticed (u u' : NoticeUnit) : Prop where
  rest : u' = { u with latches := u'.latches, beatWindow := u'.beatWindow }
  kept : ∀ i, u.latches.getLsbD i = true → u'.latches.getLsbD i = true
  from_enabled : ∀ i, u'.latches.getLsbD i = true → u.latches.getLsbD i = true ∨ u.enables.getLsbD i = true

theorem NoticeUnit.Noticed.refl (u : NoticeUnit) : u.Noticed u := ⟨rfl, fun _ h => h, fun _ h => .inl h⟩

theorem NoticeUnit.raise_noticed (now : StageTime) (src : Source) (u : NoticeUnit) : u.Noticed (u.raise now src) := by
  unfold NoticeUnit.raise
  split
  · rename_i h
    refine ⟨rfl, fun i hi => by simp [hi], fun i hi => ?_⟩
    simp only [BitVec.getLsbD_or, Bool.or_eq_true, Source.bit] at hi
    rcases hi with hi | hi
    · exact .inl hi
    · right
      rw [BitVec.getLsbD_twoPow] at hi
      simp only [Bool.and_eq_true, decide_eq_true_eq] at hi
      rw [← hi.2]; exact h
  · exact NoticeUnit.Noticed.refl u

theorem NoticeUnit.edge_noticed (now : StageTime) (src : Source) (b : Bool) (u : NoticeUnit) :
    u.Noticed (u.edge now src b) := by
  unfold NoticeUnit.edge
  split
  · split
    · exact NoticeUnit.raise_noticed ..
    · exact NoticeUnit.Noticed.refl u
  · exact NoticeUnit.Noticed.refl u

theorem NoticeUnit.judge_noticed (now : StageTime) (src : Source) (was is : Bool) (u : NoticeUnit) :
    u.Noticed (u.judge now src was is) := by
  unfold NoticeUnit.judge
  split
  · exact NoticeUnit.Noticed.refl u
  · exact NoticeUnit.edge_noticed ..

/-- A notice unit at work: noticings, and records offered to its list within the list's capacity. Enables, edge
selections, filter and mark stay. -/
structure NoticeUnit.Worked (u u' : NoticeUnit) : Prop where
  enables : u'.enables = u.enables
  falling : u'.falling = u.falling
  filter : u'.filter = u.filter
  mark : u'.mark = u.mark
  records : u.records.length ≤ 64 → u'.records.length ≤ 64
  lost : u.lost ≤ 65535 → u'.lost ≤ 65535
  kept : ∀ i, u.latches.getLsbD i = true → u'.latches.getLsbD i = true
  from_enabled : ∀ i, u'.latches.getLsbD i = true → u.latches.getLsbD i = true ∨ u.enables.getLsbD i = true

theorem NoticeUnit.Worked.refl (u : NoticeUnit) : u.Worked u :=
  ⟨rfl, rfl, rfl, rfl, fun h => h, fun h => h, fun _ h => h, fun _ h => .inl h⟩

theorem NoticeUnit.Worked.trans {u v w : NoticeUnit} (h : u.Worked v) (k : v.Worked w) : u.Worked w :=
  ⟨k.enables.trans h.enables, k.falling.trans h.falling, k.filter.trans h.filter, k.mark.trans h.mark,
    fun x => k.records (h.records x), fun x => k.lost (h.lost x), fun i x => k.kept i (h.kept i x),
    fun i x => by
      rcases k.from_enabled i x with y | y
      · exact h.from_enabled i y
      · exact .inr (h.enables ▸ y)⟩

theorem NoticeUnit.Noticed.worked {u u' : NoticeUnit} (h : u.Noticed u') : u.Worked u' := by
  have r := h.rest
  refine ⟨by rw [r], by rw [r], by rw [r], by rw [r], fun x => by rw [r]; exact x, fun x => by rw [r]; exact x, h.kept,
    h.from_enabled⟩

theorem NoticeUnit.offerRecord_worked (now : StageTime) (rec : Completion) (u : NoticeUnit) :
    u.Worked (u.offerRecord now rec) := by
  unfold NoticeUnit.offerRecord
  split
  · exact NoticeUnit.Worked.refl u
  · split
    · refine NoticeUnit.Worked.trans ?_ (NoticeUnit.judge_noticed ..).worked
      refine ⟨rfl, rfl, rfl, rfl, fun _ => ?_, fun h => h, fun _ h => h, fun _ h => .inl h⟩
      simp only [List.length_append, List.length_singleton]; omega
    · exact ⟨rfl, rfl, rfl, rfl, fun h => h, fun h => satSucc_le _ _ h, fun _ h => h, fun _ h => .inl h⟩

theorem NoticeUnit.take_worked (now : StageTime) (ref : OwnerRef) (o : OutcomeData) (u : NoticeUnit) :
    u.Worked (u.take now ref o) := by
  unfold NoticeUnit.take
  have h1 := u.offerRecord_worked now (completionOf now ref o)
  have h2 : u.Worked (if o.code.isException then (u.offerRecord now (completionOf now ref o)).raise now .exception
      else u.offerRecord now (completionOf now ref o)) := by
    split
    · exact h1.trans (NoticeUnit.raise_noticed ..).worked
    · exact h1
  simp only
  split
  · exact h2.trans (NoticeUnit.raise_noticed ..).worked
  · exact h2

/-! ### A port at work -/

/-- A port after outcomes, notices, holds and settlings: memory, link, cue match, beat mode and pass timer stay, and so
do the queue, level, chain end, serial and discard count; open records may leave, and none comes. -/
structure PortRec.Worked (r r' : PortRec) : Prop where
  mem : r'.mem = r.mem
  link : r'.link = r.link
  cue : r'.cue = r.cue
  beatMode : r'.beatMode = r.beatMode
  nextPass : r'.nextPass = r.nextPass
  unit : r.unit.Worked r'.unit
  queue : r'.reader.queue = r.reader.queue
  level : r'.reader.level = r.reader.level
  chainEnd : r'.reader.chainEnd = r.reader.chainEnd
  nextSerial : r'.reader.nextSerial = r.reader.nextSerial
  discards : r'.reader.discards = r.reader.discards
  opened : r'.reader.opened.length ≤ r.reader.opened.length
  reading : r'.reader.readingCount ≤ r.reader.readingCount

theorem PortRec.Worked.refl (r : PortRec) : r.Worked r :=
  ⟨rfl, rfl, rfl, rfl, rfl, NoticeUnit.Worked.refl _, rfl, rfl, rfl, rfl, rfl, Nat.le_refl _, Nat.le_refl _⟩

theorem PortRec.Worked.trans {r q t : PortRec} (h : r.Worked q) (k : q.Worked t) : r.Worked t :=
  ⟨k.mem.trans h.mem, k.link.trans h.link, k.cue.trans h.cue, k.beatMode.trans h.beatMode,
    k.nextPass.trans h.nextPass, h.unit.trans k.unit, k.queue.trans h.queue, k.level.trans h.level,
    k.chainEnd.trans h.chainEnd, k.nextSerial.trans h.nextSerial, k.discards.trans h.discards,
    Nat.le_trans k.opened h.opened, Nat.le_trans k.reading h.reading⟩

theorem PortRec.modUnit_worked {f : NoticeUnit → NoticeUnit} (hf : ∀ u : NoticeUnit, u.Worked (f u)) (r : PortRec) :
    r.Worked (r.modUnit f) :=
  ⟨rfl, rfl, rfl, rfl, rfl, hf r.unit, rfl, rfl, rfl, rfl, rfl, Nat.le_refl _, Nat.le_refl _⟩

theorem PortRec.raise_worked (now : StageTime) (src : Source) (r : PortRec) :
    r.Worked (r.modUnit (NoticeUnit.raise now src)) :=
  PortRec.modUnit_worked (fun _ => (NoticeUnit.raise_noticed ..).worked) r

theorem PortRec.setState_worked (st : PortState) (r : PortRec) :
    r.Worked { r with reader := { r.reader with state := st } } :=
  ⟨rfl, rfl, rfl, rfl, rfl, NoticeUnit.Worked.refl _, rfl, rfl, rfl, rfl, rfl, Nat.le_refl _, Nat.le_refl _⟩

theorem PortRec.settleNow_worked (now : StageTime) (r : PortRec) : r.Worked (r.settleNow now) := by
  unfold PortRec.settleNow
  simp only
  split
  · exact (PortRec.setState_worked _ r).trans (PortRec.raise_worked ..)
  · exact PortRec.setState_worked _ r

theorem PortRec.settle_worked (now : StageTime) (r : PortRec) : r.Worked (r.settle now) := by
  unfold PortRec.settle
  split
  · exact PortRec.Worked.refl r
  · exact PortRec.settleNow_worked now r

theorem PortRec.hold_worked (now : StageTime) (cause : HoldCause) (r : PortRec) : r.Worked (r.hold now cause) := by
  unfold PortRec.hold
  split
  · exact PortRec.Worked.refl r
  · exact (PortRec.setState_worked (.held cause) r).trans (PortRec.raise_worked ..)

/-- Changing the records of a serial, none of them made READING, keeps the counts. -/
theorem PortRec.modRecord_worked {serial : BitVec 8} {f : OpenRec → OpenRec}
    (hf : ∀ o, (f o).reading = .reading → o.reading = .reading) (r : PortRec) :
    r.Worked (r.modReader (Reader.modRecord serial f)) := by
  refine ⟨rfl, rfl, rfl, rfl, rfl, NoticeUnit.Worked.refl _, rfl, rfl, rfl, rfl, rfl, ?_, ?_⟩
  · simp [PortRec.modReader, Reader.modRecord]
  · simp only [PortRec.modReader, Reader.modRecord, Reader.readingCount]
    induction r.reader.opened with
    | nil => exact Nat.le_refl _
    | cons o os ih =>
      simp only [List.map_cons, List.filter_cons]
      by_cases hs : o.serial = serial
      · simp only [hs, if_true]
        by_cases hr : (f o).reading = .reading
        · have := hf o hr
          simpa [hr, this] using ih
        · have hr' : ((f o).reading == ReadingState.reading) = false := by simpa using hr
          rw [hr']
          by_cases ho : o.reading = .reading
          · simp only [ho, beq_self_eq_true, if_true, List.length_cons]
            exact Nat.le_succ_of_le (by simpa using ih)
          · simpa [ho] using ih
      · simp only [hs, if_false]
        by_cases ho : o.reading = .reading
        · simpa [ho] using ih
        · simpa [ho] using ih

theorem PortRec.finishIfDone_worked (now : StageTime) (serial : BitVec 8) (r : PortRec) :
    r.Worked (r.finishIfDone now serial) := by
  unfold PortRec.finishIfDone
  split
  · split
    · refine PortRec.Worked.trans ?_ (PortRec.settle_worked ..)
      refine (PortRec.raise_worked now .phraseDone r).trans ?_
      refine ⟨rfl, rfl, rfl, rfl, rfl, NoticeUnit.Worked.refl _, rfl, rfl, rfl, rfl, rfl, List.length_filter_le .., ?_⟩
      simp only [PortRec.modReader, PortRec.modUnit, Reader.readingCount, List.filter_filter]
      exact (List.monotone_filter_right _ (by intro o ho; simp_all)).length_le
    · exact PortRec.Worked.refl r
  · exact PortRec.Worked.refl r

theorem PortRec.account_worked (now : StageTime) (serial : BitVec 8) (exception : Bool) (r : PortRec) :
    r.Worked (r.account now serial exception) := by
  unfold PortRec.account
  refine PortRec.Worked.trans (PortRec.modRecord_worked ?_ r) (PortRec.finishIfDone_worked ..)
  exact fun _ h => h

theorem PortRec.leaveReading_worked (now : StageTime) {next : ReadingState} (h : next ≠ .reading) (r : PortRec) :
    r.Worked (r.leaveReading now next) := by
  unfold PortRec.leaveReading
  split
  · exact (PortRec.modRecord_worked (fun _ e => absurd e h) r).trans (PortRec.finishIfDone_worked ..)
  · exact PortRec.Worked.refl r

/-- What the delivery of an outcome can do to its port. -/
theorem PortRec.deliver_worked (now : StageTime) (ref : OwnerRef) (o : OutcomeData) (r : PortRec) :
    r.Worked (r.deliver now ref o) := by
  have h := PortRec.modUnit_worked (NoticeUnit.take_worked now ref o) r
  unfold PortRec.deliver PortRec.settleOutcome
  split
  · refine h.trans ?_
    split
    · exact (PortRec.hold_worked ..).trans (PortRec.account_worked ..)
    · exact PortRec.account_worked ..
  · exact h

/-! ### The part while its ports work -/

/-- The part after outcomes and notices: every field but the ports stands, and every port is a port at work. -/
structure State.Worked (s s' : State) : Prop where
  rest : s' = { s with ports := s'.ports }
  port : ∀ p, (s.port p).Worked (s'.port p)

theorem State.Worked.refl (s : State) : s.Worked s := ⟨rfl, fun _ => PortRec.Worked.refl _⟩

theorem State.Worked.trans {s t u : State} (h : s.Worked t) (k : t.Worked u) : s.Worked u :=
  ⟨by rw [k.rest, h.rest], fun p => (h.port p).trans (k.port p)⟩

theorem State.modPort_worked {f : PortRec → PortRec} (hf : ∀ r : PortRec, r.Worked (f r)) (s : State) (p : Port) :
    s.Worked (s.modPort p f) := by
  refine ⟨rfl, fun q => ?_⟩
  rw [State.modPort_port]
  split
  · rename_i h; subst h; exact hf _
  · exact PortRec.Worked.refl _

theorem State.modPorts_worked {f : PortRec → PortRec} (hf : ∀ r : PortRec, r.Worked (f r)) (s : State) :
    s.Worked (s.modPorts f) :=
  ⟨rfl, fun q => by rw [State.modPorts_port]; exact hf _⟩

theorem State.deliver_worked (s : State) (ref : OwnerRef) (o : OutcomeData) : s.Worked (s.deliver ref o) :=
  State.modPort_worked (PortRec.deliver_worked _ ref o) s ref.port

theorem State.foldl_deliver_worked {α : Type} (g : α → OwnerRef) (o : α → OutcomeData) (l : List α) (s : State) :
    s.Worked (l.foldl (fun st x => st.deliver (g x) (o x)) s) := by
  induction l generalizing s with
  | nil => exact State.Worked.refl s
  | cons x xs ih => exact (s.deliver_worked (g x) (o x)).trans (ih _)

theorem State.deliverAll_worked (s : State) (owners : List OwnerRef) (o : OutcomeData) :
    s.Worked (s.deliverAll owners o) :=
  State.foldl_deliver_worked (fun r => r) (fun _ => o) owners s

/-- States that differ in their ports alone are equal where every port is. -/
theorem State.eq_of_ports {s t : State} (rest : t = { s with ports := t.ports }) (ports : ∀ p, t.port p = s.port p) :
    t = s := by
  have h : t.ports = s.ports := Vector.ext fun i hi => ports ⟨i, hi⟩
  rw [rest, h]

/-- The ports after a run of deliveries depend on the ports and the stage time alone. -/
theorem State.foldl_deliver_ports {α : Type} (g : α → OwnerRef) (o : α → OutcomeData) (l : List α) {s t : State}
    (now : s.now = t.now) (ports : s.ports = t.ports) :
    (l.foldl (fun st x => st.deliver (g x) (o x)) s).ports = (l.foldl (fun st x => st.deliver (g x) (o x)) t).ports := by
  induction l generalizing s t with
  | nil => exact ports
  | cons x xs ih =>
    refine ih ?_ ?_
    · simp [now]
    · simp [State.deliver, State.modPort, now, ports]

/-- The ports after a delivery to many depend on the ports and the stage time alone. -/
theorem State.deliverAll_ports {s t : State} (now : s.now = t.now) (ports : s.ports = t.ports) (owners : List OwnerRef)
    (o : OutcomeData) : (s.deliverAll owners o).ports = (t.deliverAll owners o).ports :=
  State.foldl_deliver_ports (fun r => r) (fun _ => o) owners now ports

/-- A delivery leaves every port but its own. -/
theorem State.deliver_other (s : State) (ref : OwnerRef) (o : OutcomeData) {q : Port} (h : q ≠ ref.port) :
    (s.deliver ref o).port q = s.port q := State.modPort_port_other _ _ _ _ h

/-- Deliveries leave every port they do not go to. -/
theorem State.foldl_deliver_other {α : Type} (g : α → OwnerRef) (o : α → OutcomeData) (l : List α) (s : State) {q : Port}
    (h : ∀ x ∈ l, (g x).port ≠ q) : (l.foldl (fun st x => st.deliver (g x) (o x)) s).port q = s.port q := by
  induction l generalizing s with
  | nil => rfl
  | cons x xs ih =>
    rw [List.foldl_cons, ih _ fun y hy => h y (List.mem_cons_of_mem _ hy)]
    exact s.deliver_other _ _ (h x List.mem_cons_self).symm

theorem State.raise_worked (s : State) (p : Port) (src : Source) : s.Worked (s.raise p src) :=
  State.modPort_worked (PortRec.raise_worked s.now src) s p

theorem State.raiseAll_worked (s : State) (src : Source) : s.Worked (s.raiseAll src) :=
  State.modPorts_worked (PortRec.raise_worked s.now src) s

theorem State.edgeAll_worked (s : State) (src : Source) (b : Bool) : s.Worked (s.edgeAll src b) :=
  State.modPorts_worked
    (fun r => PortRec.modUnit_worked (fun u => (NoticeUnit.edge_noticed s.now src b u).worked) r) s

theorem State.referenced_worked (s : State) (ref : OwnerRef) : s.Worked (s.referenced ref) := by
  unfold State.referenced
  split
  · refine State.modPort_worked (fun r => PortRec.modRecord_worked ?_ r) s ref.port
    exact fun _ h => h
  · exact State.Worked.refl s

/-- Replacing the timeline: the new list stands, and the ports work on the notice of its occupancy. -/
theorem State.withTimeline_worked (s : State) (l : List Entry) : State.Worked { s with timeline := l } (s.withTimeline l) :=
  State.modPorts_worked
    (fun r => PortRec.modUnit_worked (fun u => (NoticeUnit.judge_noticed s.now .timelineHigh _ _ u).worked) r) _

/-- A withdrawal with outcomes: the kept references stand, and the ports work. -/
theorem State.withdraw_worked (s : State) (takes : OwnerRef → Bool) (code : OutcomeCode) :
    State.Worked { s with timeline := withdrawFrom takes s.timeline } (s.withdraw takes code) :=
  (s.withTimeline_worked _).trans
    (State.foldl_deliver_worked (fun x : OwnerRef × OutcomeData => x.1) (fun x => x.2) _ _)

/-! ### Offers to the timeline (R101, R103 to R105) -/

/-- What an offer of one entry can come to. -/
theorem offerEntry_cases {e : Entry} {ref : OwnerRef} {s s' : State} {o : Offered}
    (h : offerEntry e ref s = (o, s')) :
    (o = .inserted ∧ admits s.timeline ref.port = true ∧ s' = s.withTimeline (placeEntry e s.timeline) ∧
      ∀ c fig, e.action = .strike c fig →
        ∀ x ∈ s.timeline, isPartner s.settings.mergeWindow c e.target x = false) ∨
    (o = .merged ∧ ∃ c fig pre partner post, e.action = .strike c fig ∧ s.timeline = pre ++ partner :: post ∧
      isPartner s.settings.mergeWindow c e.target partner = true ∧ partner.owners.length < 4 ∧
      s' = mergeInto c fig ref pre partner post s) ∨
    (o = .absorbed ∧ s' = s) ∨ (o = .full ∧ admits s.timeline ref.port = false ∧ s' = s) := by
  have plain : ∀ {o s'}, insertOffer e ref.port s = (o, s') →
      (o = .inserted ∧ admits s.timeline ref.port = true ∧ s' = s.withTimeline (placeEntry e s.timeline)) ∨
      (o = .full ∧ admits s.timeline ref.port = false ∧ s' = s) := by
    intro o s' h
    unfold insertOffer at h
    split at h
    · cases h; exact .inl ⟨rfl, by assumption, rfl⟩
    · cases h; exact .inr ⟨rfl, by simpa using ‹¬admits s.timeline ref.port = true›, rfl⟩
  unfold offerEntry at h
  split at h
  · rename_i c fig ha
    split at h
    · rename_i pre partner post hs
      obtain ⟨h1, h2, -⟩ := splitFirst_some hs
      split at h
      · cases h; exact .inr (.inl ⟨rfl, c, fig, pre, partner, post, ha, h1, h2, by assumption, rfl⟩)
      · cases h; exact .inr (.inr (.inl ⟨rfl, rfl⟩))
    · rename_i hs
      rcases plain h with ⟨h1, h2, h3⟩ | h1
      · refine .inl ⟨h1, h2, h3, fun c' fig' ha' x hx => ?_⟩
        rw [ha] at ha'; cases ha'
        exact splitFirst_none hs x hx
      · exact .inr (.inr (.inr h1))
  · rename_i hn
    rcases plain h with ⟨h1, h2, h3⟩ | h1
    · exact .inl ⟨h1, h2, h3, fun c fig ha => absurd ha (hn c fig)⟩
    · exact .inr (.inr (.inr h1))

theorem admits_length {l : List Entry} {p : Port} (h : admits l p = true) : l.length < 256 := by
  simp only [admits, Bool.and_eq_true, decide_eq_true_eq] at h; exact h.1

/-- A merged offer's new timeline holds the partner with one more reference, at its place or placed again. -/
theorem mergeInto_timeline (c : ChanId) (fig : Figures) (ref : OwnerRef) (pre post : List Entry) (partner : Entry)
    (s : State) :
    ∃ joined : Entry, (mergeInto c fig ref pre partner post s).timeline.Perm (joined :: (pre ++ post)) ∧
      joined.owners = partner.owners ++ [ref] ∧ joined.target = partner.target ∧
      (joined.action = partner.action ∨ joined.action = .strike c fig) := by
  unfold mergeInto
  simp only
  split
  · exact ⟨(partner.joinedBy ref).reaim s.now s.settings.frameTime c fig, placeAfter_perm .., rfl, rfl, .inr rfl⟩
  · exact ⟨partner.joinedBy ref, List.perm_middle, rfl, rfl, .inl rfl⟩

theorem mergeInto_worked (c : ChanId) (fig : Figures) (ref : OwnerRef) (pre post : List Entry) (partner : Entry)
    (s : State) :
    State.Worked { s with timeline := (mergeInto c fig ref pre partner post s).timeline }
      (mergeInto c fig ref pre partner post s) := by
  unfold mergeInto
  simp only
  split <;> exact State.withTimeline_worked ..

/-- What arming carried out can come to: the ports work, after an insertion, a merge or no change of the timeline. -/
theorem State.arm_worked (s : State) (ref : OwnerRef) (a : Arm) :
    State.Worked { s with timeline := (s.arm ref a).2.timeline } (s.arm ref a).2 := by
  cases a with
  | given o =>
    have h := (s.referenced_worked ref).trans ((s.referenced ref).deliver_worked ref o)
    have e : (s.arm ref (.given o)).2.timeline = s.timeline := by simp [State.arm]
    rw [e]; exact h
  | offer e =>
    obtain ⟨o, s', ho⟩ : ∃ o s', offerEntry e ref s = (o, s') := ⟨_, _, rfl⟩
    have hw : State.Worked { s with timeline := s'.timeline } s' ∧ (o = .full → s' = s) := by
      rcases offerEntry_cases ho with ⟨rfl, -, rfl, -⟩ | ⟨rfl, c, fig, pre, partner, post, -, -, -, -, rfl⟩ | ⟨rfl, rfl⟩ |
        ⟨rfl, -, rfl⟩
      · exact ⟨State.withTimeline_worked .., by simp⟩
      · exact ⟨mergeInto_worked .., by simp⟩
      · exact ⟨State.Worked.refl _, by simp⟩
      · exact ⟨State.Worked.refl _, by simp⟩
    have hr := hw.1.trans (State.referenced_worked s' ref)
    unfold State.arm
    simp only [ho]
    cases o with
    | inserted => simpa using hr
    | merged => simpa using hr
    | absorbed => simpa using hr.trans (State.deliver_worked _ ref (e.outcome .absorbed none))
    | full => exact hw.1

/-! ### Withdrawal (R107) -/

/-- An entry that withdrawal leaves is an entry of the list with owners taken away and at least one kept. -/
theorem mem_withdrawFrom {takes : OwnerRef → Bool} {l : List Entry} {e : Entry} (h : e ∈ withdrawFrom takes l) :
    ∃ x ∈ l, e = { x with owners := x.owners.filter fun r => !takes r } ∧ e.owners ≠ [] := by
  simp only [withdrawFrom, List.mem_filterMap] at h
  obtain ⟨x, hx, he⟩ := h
  refine ⟨x, hx, ?_⟩
  unfold Entry.without at he
  split at he
  · cases he
  · rename_i r rs hr
    cases he
    exact ⟨by rw [hr], by simp⟩

theorem withdrawFrom_length (takes : OwnerRef → Bool) (l : List Entry) : (withdrawFrom takes l).length ≤ l.length :=
  List.length_filterMap_le ..

/-! ### Takes of requests and events -/

/-- What the take of a request can do: nothing in reset, a NOT_READY reply in start-up, or its block's work. -/
theorem takeRequest_cases (p : Port) (body : Body) (s : State) :
    (s.resetLow = true ∧ takeRequest p body s = s) ∨
    (s.resetLow = false ∧ s.inStartUp = true ∧ takeRequest p body s = s.reply p (Reply.bare .notReady)) ∨
    (s.resetLow = false ∧ s.inStartUp = false ∧ takeRequest p body s = (body s).1.reply p (body s).2) := by
  unfold takeRequest
  cases s.resetLow <;> cases s.inStartUp <;> simp

/-- A request taken by a part that is out of reset and past start-up is its block's work and the reply. -/
theorem takeRequest_ready {p : Port} {body : Body} {s : State} (hr : s.resetLow = false) (hu : s.inStartUp = false) :
    takeRequest p body s = (body s).1.reply p (body s).2 := by
  simp [takeRequest, hr, hu]

theorem unlessReset_running {f : State → State} {s : State} (h : s.resetLow = false) : unlessReset f s = f s := by
  simp [unlessReset, h]

theorem unlessReset_reset {f : State → State} {s : State} (h : s.resetLow = true) : unlessReset f s = s := by
  simp [unlessReset, h]

/-! ### Chains -/

@[simp] theorem Chain.place_reports (now : StageTime) (tf : Nat) (f : DriveFrame) (ch : Chain) :
    (ch.place now tf f).reports = ch.reports := by unfold Chain.place; split <;> rfl

@[simp] theorem Chain.place_scan (now : StageTime) (tf : Nat) (f : DriveFrame) (ch : Chain) :
    (ch.place now tf f).scan = ch.scan := by unfold Chain.place; split <;> rfl

@[simp] theorem Chain.place_boards (now : StageTime) (tf : Nat) (f : DriveFrame) (ch : Chain) :
    (ch.place now tf f).boards = ch.boards := by unfold Chain.place; split <;> rfl

/-- Placing a frame adds at most one to the queue. -/
theorem Chain.place_queue_length (now : StageTime) (tf : Nat) (f : DriveFrame) (ch : Chain) :
    (ch.place now tf f).queue.length ≤ ch.queue.length + 1 := by
  unfold Chain.place; split <;> simp

/-- A frame that waits after a placing waited before, or is the frame placed. -/
theorem Chain.mem_place_queue {now : StageTime} {tf : Nat} {f g : DriveFrame} {ch : Chain}
    (h : g ∈ (ch.place now tf f).queue) : g ∈ ch.queue ∨ g = f := by
  unfold Chain.place at h
  split at h
  · exact .inl h
  · simpa using h

/-! ### Scans -/

/-- A board that a restricted scan still listens for was listened for and heard (R151). -/
@[simp] theorem Scan.restrict_listens (heard : Fin 4 → Bool) (sc : Scan) (b : Fin 4) :
    (sc.restrict heard).listens[b] = (sc.listens[b] && heard b) := by simp [Scan.restrict]

/-- A restricted scan keeps what it collected of the boards it still listens for, and nothing else (R151). -/
@[simp] theorem Scan.restrict_found (heard : Fin 4 → Bool) (sc : Scan) (b : Fin 4) :
    (sc.restrict heard).found[b] = if sc.listens[b] && heard b then sc.found[b] else none := by simp [Scan.restrict]

@[simp] theorem Scan.restrict_start (heard : Fin 4 → Bool) (sc : Scan) : (sc.restrict heard).start = sc.start := rfl

@[simp] theorem Scan.restrict_kind (heard : Fin 4 → Bool) (sc : Scan) : (sc.restrict heard).kind = sc.kind := rfl

@[simp] theorem Chain.interruptScan_scan (ch : Chain) :
    ch.interruptScan.scan = ch.scan.map (Scan.restrict fun b => !ch.pinging b) := rfl

/-- The entry into the safe state moves nothing of a chain but its scan, before the queue is discarded (R151). -/
theorem Chain.interruptScan_rest (ch : Chain) : ch.interruptScan = { ch with scan := ch.interruptScan.scan } := rfl

/-- All that receiving a report frame can do: count it as broken, disregard a HELLO, collect one that the scan listens
for, queue a report, or lose it (R144, R147, R151). -/
theorem Chain.receive_cases (now : StageTime) (word : BitVec 32) (ch : Chain) :
    (decodeReport word = none ∧ ch.receive now word = { ch with checkErrors := satSucc ch.checkErrors 65535 }) ∨
    (∃ board mask, decodeReport word = some (.hello board mask) ∧
      (((ch.scan = none ∨ ∃ sc, ch.scan = some sc ∧ sc.listens[board] = false) ∧ ch.receive now word = ch) ∨
        ∃ sc, ch.scan = some sc ∧ sc.listens[board] = true ∧
          ch.receive now word = { ch with scan := some (sc.collect board mask) })) ∨
    ∃ kind board output, decodeReport word = some (.report kind board output) ∧
      ((ch.reports.length < 16 ∧ ch.receive now word =
          { ch with reports := ch.reports ++ [{ kind := kind, board := board, output := output, placed := now }] }) ∨
        (16 ≤ ch.reports.length ∧
          ch.receive now word = { ch with overflow := true, lost := satSucc ch.lost 65535 })) := by
  unfold Chain.receive
  split
  · exact .inl ⟨by assumption, rfl⟩
  · rename_i board mask h
    refine .inr (.inl ⟨board, mask, h, ?_⟩)
    split
    · rename_i sc hs
      cases hl : sc.listens[board]
      · exact .inl ⟨.inr ⟨sc, hs, hl⟩, by simp⟩
      · exact .inr ⟨sc, hs, hl, by simp⟩
    · exact .inl ⟨.inl (by assumption), rfl⟩
  · rename_i kind board output h
    refine .inr (.inr ⟨kind, board, output, h, ?_⟩)
    split
    · exact .inl ⟨by assumption, rfl⟩
    · exact .inr ⟨by omega, rfl⟩

end Sys2Proof.Machine
end

