-- ==== Sys2Proof/Laws/Launching.lean ====
section
/-! SUPPORT. What a presentation can come to, and what the checks have found when an entry launches; how a channel cools and
when a report is taken. -/

namespace Sys2Proof.Machine

/-! ### The checks -/

theorem State.channelCheck_none {s : State} {c : ChanId} {k : Kind} (h : s.channelCheck c k = none) :
    s.scanning (chainOf c) = false ∧ (s.chan c).presence = .ready ∧ (s.chan c).kind = some k := by
  unfold State.channelCheck at h
  split at h
  · cases h
  · rename_i hs
    refine ⟨by simpa using hs, ?_⟩
    split at h <;> first | cases h | skip
    rename_i hp
    split at h
    · rename_i hk; exact ⟨hp, hk⟩
    · cases h

theorem State.supplyCheck_none {s : State} {c : ChanId} (h : s.supplyCheck c = none) :
    (strikeTill s.energised c).isSome = true ∨ s.energised.length < s.settings.supplyLimit := by
  unfold State.supplyCheck at h
  split at h
  · rename_i hc; simpa using hc
  · split at h <;> cases h

theorem Channel.notReady_none {now : StageTime} {ch : Channel} (h : ch.notReady now = none) : ch.slot = none := by
  unfold Channel.notReady at h
  split at h
  · assumption
  · assumption
  · cases h
  · split at h <;> cases h

/-- The pulse the heat check passes fits the headroom (R122). -/
theorem Channel.heatCheck_some {pulse sent : Nat} {degraded : Bool} {ch : Channel}
    (h : ch.heatCheck pulse = some (sent, degraded)) :
    sent ≤ ch.scalars.heatLimit - ch.heat ∧ sent ≤ pulse ∧ (degraded = true ↔ sent < pulse) := by
  unfold Channel.heatCheck at h
  simp only at h
  split at h
  · cases h; simp; assumption
  · split at h
    · cases h; simp; omega
    · cases h

/-- What the six checks have found when a stroke launches (R118). -/
theorem State.strikeVerdict_go {s : State} {c : ChanId} {fig : Figures} {pulse : Nat} {degraded : Bool}
    (h : s.strikeVerdict c fig = .go pulse degraded) :
    s.channelCheck c .strike = none ∧ (s.chan c).notReady s.now = none ∧ s.supplyLow = false ∧
      s.supplyCheck c = none ∧ (s.chan c).heatCheck fig.pulse = some (pulse, degraded) ∧
      (s.chain (chainOf c)).hasRoom = true := by
  have never : ∀ {v}, s.supplyCheck c = some v → v ≠ .go pulse degraded := by
    intro v hv he
    subst he
    unfold State.supplyCheck at hv
    split at hv
    · cases hv
    · split at hv <;> cases hv
  unfold State.strikeVerdict at h
  split at h
  · cases h
  · split at h
    · cases h
    · split at h
      · cases h
      · split at h
        · rename_i hv; exact absurd h (never hv)
        · split at h
          · cases h
          · split at h
            · cases h
              exact ⟨by assumption, by assumption, by simpa using ‹¬s.supplyLow = true›, by assumption, by assumption,
                by assumption⟩
            · cases h

/-- What the checks have found when a lift launches (R125). -/
theorem State.liftVerdict_go {s : State} {c : ChanId} {pulse : Nat} {degraded : Bool}
    (h : s.liftVerdict c = .go pulse degraded) :
    s.channelCheck c .hold = none ∧ s.supplyLow = false ∧
      ((s.chan c).hold.isSome = true ∨ s.supplyCheck c = none) ∧ (s.chain (chainOf c)).hasRoom = true := by
  have never : ∀ {v}, s.supplyCheck c = some v → v ≠ .go pulse degraded := by
    intro v hv he
    subst he
    unfold State.supplyCheck at hv
    split at hv
    · cases hv
    · split at hv <;> cases hv
  unfold State.liftVerdict at h
  split at h
  · cases h
  · split at h
    · cases h
    · split at h
      · rename_i hv
        split at hv
        · cases hv
        · exact absurd h (never hv)
      · split at h
        · rename_i h1 h2 _ h3 h4
          refine ⟨h1, by simpa using h2, ?_, h4⟩
          split at h3
          · exact .inl (by assumption)
          · exact .inr h3
        · cases h

/-- What the checks have found when a drop launches (R125). -/
theorem State.dropVerdict_go {s : State} {c : ChanId} {pulse : Nat} {degraded : Bool}
    (h : s.dropVerdict c = .go pulse degraded) :
    s.channelCheck c .hold = none ∧ (s.chain (chainOf c)).hasRoom = true := by
  unfold State.dropVerdict at h
  split at h
  · cases h
  · split at h
    · exact ⟨by assumption, by assumption⟩
    · cases h

/-! ### The ends of a presentation (R116) -/

/-- The ends a presentation can have. -/
inductive Presented (s : State) (e : Entry) (rest : List Entry) : State → Prop where
  | mark : Presented s e rest (s.completeMark e rest)
  | drop (code : OutcomeCode) : Presented s e rest (s.dropEntry e rest code)
  | retime (t : StageTime) (code : OutcomeCode) : Presented s e rest (s.retime e rest t code)
  | strike (c : ChanId) (fig : Figures) (pulse : Nat) (degraded : Bool) (ha : e.action = .strike c fig)
      (h : s.strikeVerdict c fig = .go pulse degraded) : Presented s e rest (s.launchStrike e rest c fig pulse degraded)
  | lift (c : ChanId) (level pulse : Nat) (degraded : Bool) (ha : e.action = .lift c level)
      (h : s.liftVerdict c = .go pulse degraded) : Presented s e rest (s.launchLift e rest c level)
  | dropHold (c : ChanId) (pulse : Nat) (degraded : Bool) (ha : e.action = .drop c)
      (h : s.dropVerdict c = .go pulse degraded) : Presented s e rest (s.launchDrop e rest c)

theorem State.present_cases (s : State) (e : Entry) (rest : List Entry) : Presented s e rest (s.present e rest) := by
  unfold State.present
  split
  · exact .mark
  · split
    · exact .strike _ _ _ _ (by assumption) (by assumption)
    · exact .retime _ _
    · exact .drop _
  · split
    · exact .lift _ _ _ _ (by assumption) (by assumption)
    · exact .retime _ _
    · exact .drop _
  · split
    · exact .dropHold _ _ _ (by assumption) (by assumption)
    · exact .retime _ _
    · exact .drop _

theorem State.dropEntry_worked (s : State) (e : Entry) (rest : List Entry) (code : OutcomeCode) :
    State.Worked { s with timeline := rest } (s.dropEntry e rest code) :=
  (s.withTimeline_worked rest).trans (State.deliverAll_worked ..)

theorem State.completeMark_worked (s : State) (e : Entry) (rest : List Entry) :
    State.Worked { s with timeline := rest } (s.completeMark e rest) :=
  (s.withTimeline_worked rest).trans (State.deliverAll_worked ..)

/-- A retime places the entry again with a new send time, its target and owners kept, or drops it. -/
theorem State.retime_worked (s : State) (e : Entry) (rest : List Entry) (t : StageTime) (code : OutcomeCode) :
    State.Worked { s with timeline := placeEntry { e with send := t, retimed := true } rest } (s.retime e rest t code) ∨
      State.Worked { s with timeline := rest } (s.retime e rest t code) := by
  unfold State.retime
  split
  · exact .inr (s.dropEntry_worked e rest code)
  · exact .inl (s.withTimeline_worked _)

/-! ### The energised set -/

theorem deenergise_length (c : ChanId) (l : List Member) : (deenergise c l).length ≤ l.length :=
  List.length_filter_le ..

theorem putMember_length (m : Member) (l : List Member) : (putMember m l).length ≤ l.length + 1 := by
  unfold putMember
  rw [placeAfter_length]
  have := deenergise_length m.chan l
  omega

/-- A set that holds the channel already does not grow. -/
theorem putMember_length_of_mem {m : Member} {l : List Member} (h : (strikeTill l m.chan).isSome = true) :
    (putMember m l).length ≤ l.length := by
  unfold putMember
  rw [placeAfter_length]
  have : (deenergise m.chan l).length < l.length := by
    unfold deenergise
    cases hf : l.find? fun x => x.chan == m.chan with
    | none => simp [strikeTill, hf] at h
    | some x =>
      have hx := List.mem_of_find?_eq_some hf
      have hp := List.find?_some hf
      have hlt : (l.filter fun y => y.chan != m.chan).length < l.length := by
        rw [List.length_filter_lt_length_iff_exists]
        exact ⟨x, hx, by simpa using hp⟩
      exact hlt
  omega

/-! ### Cooling and the taking of reports (R129, R154) -/

/-- Dropping a passed ready-after leaves the rest of the channel (R129 step 4). -/
theorem Channel.dropReadyAfter_eq (now : StageTime) (ch : Channel) :
    ch.dropReadyAfter now = { ch with readyAfter := ch.readyAfter.filter fun r => !atOrBefore r now } := by
  unfold Channel.dropReadyAfter
  cases h : ch.readyAfter with
  | none => cases ch; simp_all
  | some t =>
    by_cases h2 : atOrBefore t now = true
    · simp [Option.filter, h2]
    · cases ch; simp_all [Option.filter]

/-- A channel whose hold is DOWN only cools (R129 step 1). -/
theorem Channel.cool_of_down {ch : Channel} (h : ch.hold = none) :
    ch.cool = { ch with heat := ch.heat - (if ch.heat = 0 then 0
      else max 1 (ch.heat * ch.scalars.coolingRate / 256)) } := by
  unfold Channel.cool
  rw [h]
  simp only
  split <;> rename_i h2 <;> simp [h2]

/-- The cooling step of a channel whose hold is DOWN changes that channel alone (R129). -/
theorem State.coolChannel_of_down {s : State} {c : ChanId} (h : (s.chan c).hold = none) :
    s.coolChannel c = s.modChan c fun ch => ch.cool.dropReadyAfter s.now := by
  have h1 : ((s.modChan c Channel.cool).chan c).hold = none := by
    rw [State.modChan_chan, if_pos rfl, Channel.cool_of_down h, ← h]
  unfold State.coolChannel
  simp only [h1]
  simp [State.modChan]

/-- The head report of a chain is taken at its take time (R154). -/
theorem Chain.takesAt_iff {ch : Chain} {r : Report} {time : StageTime} :
    ch.TakesAt r.placed time ↔ time = ch.takeTime r := by
  unfold Chain.TakesAt Chain.takeTime
  cases ch.lastTake <;> simp

end Sys2Proof.Machine
end

