-- ==== Sys2Proof/Laws/Links.lean ====
section
/-! SUPPORT. Frames and their fields: fields of 2 and 4 bytes read back as they were laid out, and a link that has
received exactly one good frame holds its kind and payload; what each kind byte is dispatched to. -/

namespace Sys2Proof.Machine

/-! ### Fields -/

theorem bytes16_eq (x : BitVec 16) : bytes16 x = [x.extractLsb' 8 8, x.extractLsb' 0 8] := by
  simp only [bytes16, bytesOf, List.cons.injEq, and_true]
  refine ⟨?_, ?_⟩ <;> apply BitVec.eq_of_toNat_eq <;> simp [BitVec.extractLsb'_toNat, Nat.shiftRight_eq_div_pow]

theorem bytes32_eq (x : BitVec 32) :
    bytes32 x = [x.extractLsb' 24 8, x.extractLsb' 16 8, x.extractLsb' 8 8, x.extractLsb' 0 8] := by
  simp only [bytes32, bytesOf, List.cons.injEq, and_true]
  refine ⟨?_, ?_, ?_, ?_⟩ <;> apply BitVec.eq_of_toNat_eq <;>
    simp [BitVec.extractLsb'_toNat, Nat.shiftRight_eq_div_pow]

/-- The two bytes of a field, put together again. -/
theorem join16 (x : BitVec 16) : x.extractLsb' 8 8 ++ x.extractLsb' 0 8 = x := by
  ext i hi
  simp only [BitVec.getElem_append, BitVec.getElem_extractLsb']
  split
  · simp [BitVec.getLsbD_eq_getElem hi]
  · rename_i h
    rw [show 8 + (i - 8) = i by omega, BitVec.getLsbD_eq_getElem hi]

/-- The four bytes of a field, put together again. -/
theorem join32 (x : BitVec 32) :
    ((x.extractLsb' 24 8 ++ x.extractLsb' 16 8) ++ x.extractLsb' 8 8) ++ x.extractLsb' 0 8 = x := by
  ext i hi
  simp only [BitVec.getElem_append, BitVec.getElem_extractLsb']
  split
  · simp [BitVec.getLsbD_eq_getElem hi]
  · split
    · rw [show 8 + (i - 8) = i by omega, BitVec.getLsbD_eq_getElem hi]
    · split
      · rw [show 16 + (i - 8 - 8) = i by omega, BitVec.getLsbD_eq_getElem hi]
      · rw [show 24 + (i - 8 - 8 - 8) = i by omega, BitVec.getLsbD_eq_getElem hi]

/-! ### Frames -/

/-- A link that has received exactly one frame with a good check holds its kind and payload (R187 step 1). -/
theorem Link.frame_closed (kind : Byte) (payload : List Byte) (k : Link) (h : payload.length ≤ 248) :
    (k.closed (frameOf kind payload) 0).frame = some (kind, payload) := by
  have hl : (frameOf kind payload).length = payload.length + 3 := by simp [frameOf]
  have ht : (frameOf kind payload).take 251 = frameOf kind payload := List.take_of_length_le (by omega)
  have h1 : byteAt (frameOf kind payload) 1 = BitVec.ofNat 8 payload.length := by simp [frameOf, byteAt]
  have hn : (BitVec.ofNat 8 payload.length).toNat = payload.length := by simp; omega
  have h0 : byteAt (frameOf kind payload) 0 = kind := by simp [frameOf, byteAt]
  have hb : (frameOf kind payload).take (payload.length + 2) = kind :: BitVec.ofNat 8 payload.length :: payload := by
    simp [frameOf]
  have hc : byteAt (frameOf kind payload) (payload.length + 2) =
      crc8 (kind :: BitVec.ofNat 8 payload.length :: payload) := by
    simp [frameOf, byteAt, List.getD]
  have hd : ((frameOf kind payload).drop 2).take payload.length = payload := by simp [frameOf]
  unfold Link.frame Link.closed
  simp only [ht, h1, hn, hl]
  rw [hb, hc, h0, hd]
  simp
  omega

/-! ### Dispatch: the work of each kind byte (R187 step 4, R197) -/

theorem dispatch_01 (p : Port) (l : List Byte) :
    dispatch p 0x01 l = some (exactly 0 l (portResetBody p)) := rfl

theorem dispatch_10 (p : Port) (l : List Byte) :
    dispatch p 0x10 l = some (exactly 1 l (runStopBody p true (byteAt l 0))) := rfl

theorem dispatch_11 (p : Port) (l : List Byte) :
    dispatch p 0x11 l = some (exactly 1 l (runStopBody p false (byteAt l 0))) := rfl

theorem dispatch_12 (p : Port) (l : List Byte) :
    dispatch p 0x12 l = some (exactly 8 l (clkPlaceBody p (byteAt l 0) (be32 l 1) (be16 l 5) (byteAt l 7))) := rfl

theorem dispatch_13 (p : Port) (l : List Byte) :
    dispatch p 0x13 l = some (exactly 0 l clkReadBody) := rfl

theorem dispatch_14 (p : Port) (l : List Byte) :
    dispatch p 0x14 l = some (exactly 2 l (tempoSetBody (be16 l 0))) := rfl

theorem dispatch_15 (p : Port) (l : List Byte) :
    dispatch p 0x15 l = some (exactly 4 l (tempoGlideBody (be16 l 0) (be16 l 2))) := rfl

theorem dispatch_16 (p : Port) (l : List Byte) :
    dispatch p 0x16 l = some (exactly 12 l (tempoCurveBody (be32 l 0) (be32 l 4) (be32 l 8))) := rfl

theorem dispatch_17 (p : Port) (l : List Byte) :
    dispatch p 0x17 l = some (exactly 1 l (meterSetBody (byteAt l 0))) := rfl

theorem dispatch_18 (p : Port) (l : List Byte) :
    dispatch p 0x18 l = some (exactly 4 l (cueSetBody p (be16 l 0) (byteAt l 2) (byteAt l 3))) := rfl

theorem dispatch_19 (p : Port) (l : List Byte) :
    dispatch p 0x19 l = some (exactly 1 l (beatModeBody p (byteAt l 0))) := rfl

theorem dispatch_20 (p : Port) (l : List Byte) :
    dispatch p 0x20 l = some (exactly 13 l (chanSetupBody (byteAt l 0) (setupOfBytes l))) := rfl

theorem dispatch_21 (p : Port) (l : List Byte) :
    dispatch p 0x21 l = some (exactly 33 l (chanCurveBody (byteAt l 0) (knotsOfBytes l))) := rfl

theorem dispatch_22 (p : Port) (l : List Byte) :
    dispatch p 0x22 l = some (exactly 1 l (chanReleaseBody (byteAt l 0))) := rfl

theorem dispatch_23 (p : Port) (l : List Byte) :
    dispatch p 0x23 l = some (exactly 1 l (chanReadBody (byteAt l 0))) := rfl

theorem dispatch_28 (p : Port) (l : List Byte) :
    dispatch p 0x28 l = some (cellsWritePayload p l) := rfl

theorem dispatch_29 (p : Port) (l : List Byte) :
    dispatch p 0x29 l = some (exactly 3 l (cellsReadBody p (be16 l 0) (byteAt l 2))) := rfl

theorem dispatch_30 (p : Port) (l : List Byte) :
    dispatch p 0x30 l = some (exactly 7 l (phrasePostBody p (be16 l 0) (byteAt l 2) (be32 l 3))) := rfl

theorem dispatch_31 (p : Port) (l : List Byte) :
    dispatch p 0x31 l = some (exactly 1 l (portStopBody p (byteAt l 0))) := rfl

theorem dispatch_32 (p : Port) (l : List Byte) :
    dispatch p 0x32 l = some (exactly 0 l (portFlushBody p)) := rfl

theorem dispatch_33 (p : Port) (l : List Byte) :
    dispatch p 0x33 l = some (exactly 0 l (portGoBody p)) := rfl

theorem dispatch_34 (p : Port) (l : List Byte) :
    dispatch p 0x34 l = some (exactly 3 l (strikeBody p (byteAt l 0) (byteAt l 1) (byteAt l 2))) := rfl

theorem dispatch_35 (p : Port) (l : List Byte) :
    dispatch p 0x35 l = some (exactly 3 l (holdSetBody p (byteAt l 0) (byteAt l 1) (byteAt l 2))) := rfl

theorem dispatch_36 (p : Port) (l : List Byte) :
    dispatch p 0x36 l = some (exactly 0 l (portReadBody p)) := rfl

theorem dispatch_40 (p : Port) (l : List Byte) :
    dispatch p 0x40 l = some (exactly 15 l (sysSetupBody (settingsOfBytes l))) := rfl

theorem dispatch_41 (p : Port) (l : List Byte) :
    dispatch p 0x41 l = some (exactly 0 l sysReadBody) := rfl

theorem dispatch_42 (p : Port) (l : List Byte) :
    dispatch p 0x42 l = some (exactly 0 l supplyAckBody) := rfl

theorem dispatch_48 (p : Port) (l : List Byte) :
    dispatch p 0x48 l = some (exactly 1 l (chainScanBody (byteAt l 0))) := rfl

theorem dispatch_49 (p : Port) (l : List Byte) :
    dispatch p 0x49 l = some (exactly 1 l (chainReadBody (byteAt l 0))) := rfl

theorem dispatch_4a (p : Port) (l : List Byte) :
    dispatch p 0x4A l = some (exactly 0 l timingReadBody) := rfl

theorem dispatch_50 (p : Port) (l : List Byte) :
    dispatch p 0x50 l = some (exactly 0 l (doneReadBody p)) := rfl

theorem dispatch_51 (p : Port) (l : List Byte) :
    dispatch p 0x51 l = some (exactly 2 l (filterSetBody p (byteAt l 0) (byteAt l 1))) := rfl

theorem dispatch_52 (p : Port) (l : List Byte) :
    dispatch p 0x52 l = some (exactly 2 l (noteMaskBody p (be16 l 0))) := rfl

theorem dispatch_53 (p : Port) (l : List Byte) :
    dispatch p 0x53 l = some (exactly 1 l (noteEdgeBody p (byteAt l 0))) := rfl

theorem dispatch_54 (p : Port) (l : List Byte) :
    dispatch p 0x54 l = some (exactly 2 l (noteClearBody p (be16 l 0))) := rfl

theorem dispatch_55 (p : Port) (l : List Byte) :
    dispatch p 0x55 l = some (exactly 2 l (noteForceBody p (be16 l 0))) := rfl

theorem dispatch_56 (p : Port) (l : List Byte) :
    dispatch p 0x56 l = some (exactly 0 l (noteReadBody p)) := rfl

/-! ### Notices and ramps -/

/-- An enabled source that is raised is latched. -/
theorem NoticeUnit.raise_latched (now : StageTime) (src : Source) (u : NoticeUnit) (h : u.enabled src = true) :
    (u.raise now src).latched src = true := by
  simp only [NoticeUnit.raise, h, if_true, NoticeUnit.latched, Source.bit, BitVec.getLsbD_or, BitVec.getLsbD_twoPow]
  cases src <;> simp [Source.num]

/-- A ramp stage moves nothing but the rate, the ramp and the clamped flag. -/
theorem Clock.rampStage_rest (c : Clock) :
    c.rampStage = { c with rate := c.rampStage.rate, ramp := c.rampStage.ramp, clamped := c.rampStage.clamped } := by
  unfold Clock.rampStage Clock.endAtLimit
  split
  · rfl
  · simp only; (repeat' split) <;> rfl
  · simp only; (repeat' split) <;> rfl

/-- An outcome of an immediate request touches the notice unit of its port alone. -/
theorem State.deliver_bare (s : State) (p : Port) (o : OutcomeData) :
    (s.referenced (OwnerRef.bare p)).deliver (OwnerRef.bare p) o =
      s.modUnit p (NoticeUnit.take s.now (OwnerRef.bare p) o) := by
  simp [State.referenced, OwnerRef.bare, State.deliver, State.modUnit]
  rfl

end Sys2Proof.Machine
end

