-- ==== Sys2Proof/Laws/Memory.lean ====
section
/-! SUPPORT. Phrase memory: reading after writing, and the canonical form that every write keeps. -/

namespace Sys2Proof.Machine

/-! ### The canonical form -/

/-- Every address of the list is above `lo`. -/
def Memory.above (lo : Option Nat) (a : Nat) : Prop := ∀ l, lo = some l → l < a

theorem Memory.wfFrom_cons (lo : Option Nat) (k : Nat) (v : Byte) (m : List Host.Cell) :
    Memory.wfFrom lo ((k, v) :: m) = true ↔ Memory.above lo k ∧ v ≠ 0 ∧ Memory.wfFrom (some k) m = true := by
  cases lo <;> simp [Memory.wfFrom, Memory.above, and_assoc]

theorem Memory.wfFrom_weaken {lo lo' : Option Nat} {m : List Host.Cell} (h : Memory.wfFrom lo m = true)
    (hlo : ∀ a, Memory.above lo a → Memory.above lo' a) : Memory.wfFrom lo' m = true := by
  cases m with
  | nil => rfl
  | cons x m =>
    obtain ⟨k, v⟩ := x
    rw [Memory.wfFrom_cons] at h ⊢
    exact ⟨hlo k h.1, h.2⟩

theorem Memory.wfFrom_writeByte {lo : Option Nat} {m : List Host.Cell} (h : Memory.wfFrom lo m = true) (a : Nat)
    (b : Byte) (ha : Memory.above lo a) : Memory.wfFrom lo (writeByte m a b) = true := by
  induction m generalizing lo with
  | nil =>
    unfold writeByte
    split
    · rfl
    · rw [Memory.wfFrom_cons]; exact ⟨ha, by assumption, rfl⟩
  | cons x m ih =>
    obtain ⟨k, v⟩ := x
    rw [Memory.wfFrom_cons] at h
    obtain ⟨hk, hv, hm⟩ := h
    unfold writeByte
    split
    · split
      · rw [Memory.wfFrom_cons]; exact ⟨hk, hv, hm⟩
      · rw [Memory.wfFrom_cons, Memory.wfFrom_cons]
        exact ⟨ha, by assumption, by intro l hl; cases hl; assumption, hv, hm⟩
    · split
      · split
        · exact Memory.wfFrom_weaken hm (by intro c hc l hl; subst hl; have := hk l rfl; have := hc k rfl; omega)
        · rw [Memory.wfFrom_cons]
          exact ⟨ha, by assumption,
            Memory.wfFrom_weaken hm (by intro c hc l hl; cases hl; have := hc k rfl; omega)⟩
      · rw [Memory.wfFrom_cons]
        exact ⟨hk, hv, ih hm (by intro l hl; cases hl; omega)⟩

/-- A write of one byte keeps the canonical form. -/
theorem Memory.wf_writeByte {m : List Host.Cell} (h : Memory.wf m = true) (a : Nat) (b : Byte) :
    Memory.wf (writeByte m a b) = true :=
  Memory.wfFrom_writeByte h a b (by intro l hl; cases hl)

/-- A write of many bytes keeps the canonical form. -/
theorem Memory.wf_writeBytes {m : List Host.Cell} (h : Memory.wf m = true) (a : Nat) (l : List Byte) :
    Memory.wf (writeBytes m a l) = true := by
  induction l generalizing m a with
  | nil => exact h
  | cons b bs ih => exact ih (Memory.wf_writeByte h a b) (a + 1)

/-- The regions after reset are in canonical form. -/
theorem Memory.wf_reset (p : Port) : Memory.wf (State.reset.port p).mem = true := by
  simp [State.port, State.reset, PortRec.reset, Memory.wf, Memory.wfFrom]

/-! ### Listed addresses -/

/-- A write of one byte lists no address but its own and those listed before. -/
theorem Memory.mem_writeByte {m : List Host.Cell} {a : Nat} {b : Byte} {x : Host.Cell} (h : x ∈ writeByte m a b) :
    x.1 = a ∨ x ∈ m := by
  induction m with
  | nil =>
    unfold writeByte at h
    split at h <;> simp_all
  | cons y m ih =>
    obtain ⟨k, v⟩ := y
    unfold writeByte at h
    split at h
    · split at h
      · exact .inr h
      · rcases List.mem_cons.mp h with h | h
        · exact .inl (by rw [h])
        · exact .inr h
    · split at h
      · split at h
        · exact .inr (List.mem_cons_of_mem _ h)
        · rcases List.mem_cons.mp h with h | h
          · exact .inl (by rw [h])
          · exact .inr (List.mem_cons_of_mem _ h)
      · rcases List.mem_cons.mp h with h | h
        · exact .inr (by rw [h]; exact List.mem_cons_self ..)
        · rcases ih h with h | h
          · exact .inl h
          · exact .inr (List.mem_cons_of_mem _ h)

/-- A write of many bytes lists no address but those of its bytes and those listed before. -/
theorem Memory.mem_writeBytes {m : List Host.Cell} {a : Nat} {l : List Byte} {x : Host.Cell}
    (h : x ∈ writeBytes m a l) : (a ≤ x.1 ∧ x.1 < a + l.length) ∨ x ∈ m := by
  induction l generalizing m a with
  | nil => exact .inr h
  | cons b bs ih =>
    rcases ih h with h | h
    · exact .inl (by simp only [List.length_cons]; omega)
    · rcases Memory.mem_writeByte h with h | h
      · exact .inl (by simp only [List.length_cons]; omega)
      · exact .inr h

/-! ### Reading -/

/-- A byte below every listed address reads 0. -/
theorem readByte_below {m : List Host.Cell} {a k : Nat} (h : Memory.wfFrom (some k) m = true) (ha : a ≤ k) :
    readByte m a = 0 := by
  induction m generalizing k with
  | nil => rfl
  | cons x m ih =>
    obtain ⟨j, v⟩ := x
    rw [Memory.wfFrom_cons] at h
    have hj := h.1 k rfl
    unfold readByte
    rw [if_neg (by omega)]
    exact ih h.2.2 (by omega)

theorem readByte_writeByte_from {lo : Option Nat} {m : List Host.Cell} (h : Memory.wfFrom lo m = true) (a c : Nat)
    (b : Byte) : readByte (writeByte m a b) c = if c = a then b else readByte m c := by
  induction m generalizing lo with
  | nil =>
    unfold writeByte
    by_cases hb : b = 0
    · simp [hb, readByte]
    · simp only [hb, if_false, readByte]
      by_cases hc : c = a
      · simp [hc]
      · rw [if_neg (fun e => hc e.symm), if_neg hc]
  | cons x m ih =>
    obtain ⟨k, v⟩ := x
    rw [Memory.wfFrom_cons] at h
    obtain ⟨hk, hv, hm⟩ := h
    have below : ∀ d, d ≤ k → readByte m d = 0 := fun d hd => readByte_below hm hd
    unfold writeByte
    by_cases h1 : a < k
    · rw [if_pos h1]
      by_cases hb : b = 0
      · rw [if_pos hb]
        by_cases hc : c = a
        · subst hc
          simp [readByte, hb, below c (by omega), show k ≠ c by omega]
        · rw [if_neg hc]
      · rw [if_neg hb]
        by_cases hc : c = a
        · subst hc; simp [readByte]
        · rw [if_neg hc]; simp only [readByte]; rw [if_neg (fun e => hc e.symm)]
    · rw [if_neg h1]
      by_cases h2 : a = k
      · subst h2
        rw [if_pos rfl]
        by_cases hb : b = 0
        · rw [if_pos hb]
          by_cases hc : c = a
          · subst hc; rw [if_pos rfl, below c (by omega), hb]
          · rw [if_neg hc]; simp only [readByte]; rw [if_neg (fun e => hc e.symm)]
        · rw [if_neg hb]
          by_cases hc : c = a
          · subst hc; simp [readByte]
          · rw [if_neg hc]; simp only [readByte]; rw [if_neg (fun e => hc e.symm), if_neg (fun e => hc e.symm)]
      · rw [if_neg h2]
        simp only [readByte]
        by_cases hc : k = c
        · rw [if_pos hc, if_pos hc, if_neg (by omega)]
        · rw [if_neg hc, if_neg hc]; exact ih hm

/-- A byte read after a write: the byte written at its address, and the byte read before everywhere else. -/
theorem readByte_writeByte {m : List Host.Cell} (h : Memory.wf m = true) (a c : Nat) (b : Byte) :
    readByte (writeByte m a b) c = if c = a then b else readByte m c :=
  readByte_writeByte_from h a c b

/-- A byte read after a write of many bytes. -/
theorem readByte_writeBytes {m : List Host.Cell} (h : Memory.wf m = true) (a c : Nat) (l : List Byte) :
    readByte (writeBytes m a l) c =
      if a ≤ c ∧ c < a + l.length then l.getD (c - a) 0 else readByte m c := by
  induction l generalizing m a with
  | nil => rw [if_neg (by simp)]; rfl
  | cons b bs ih =>
    unfold writeBytes
    rw [ih (Memory.wf_writeByte h a b), readByte_writeByte h]
    by_cases h1 : c = a
    · subst h1; simp
    · by_cases h2 : a + 1 ≤ c ∧ c < a + 1 + bs.length
      · rw [if_pos h2, if_pos (by simp only [List.length_cons]; omega)]
        rw [show c - a = (c - (a + 1)) + 1 by omega]
        rfl
      · rw [if_neg h2, if_neg h1, if_neg (by simp only [List.length_cons]; omega)]

/-- Reading `n` bytes gives `n` bytes. -/
theorem readBytes_length (m : List Host.Cell) (a n : Nat) : (readBytes m a n).length = n := by
  induction n generalizing a with
  | zero => rfl
  | succ n ih => simp [readBytes, ih]

end Sys2Proof.Machine
end

