-- ==== Sys2Proof/Laws/Preserve.lean ====
section
/-! SUPPORT. One induction for all steps: a property kept by each request's block and by each event is kept by every
step. -/

namespace Sys2Proof.Machine

/-- The work of the owning block of each request, with the request's fields. -/
inductive IsBody (p : Port) : Body → Prop where
  | portReset : IsBody p (portResetBody p)
  | runStop (run : Bool) (mode : Byte) : IsBody p (runStopBody p run mode)
  | clkPlace (mode : Byte) (tick : Tick) (bar : BitVec 16) (beat : Byte) : IsBody p (clkPlaceBody p mode tick bar beat)
  | clkRead : IsBody p clkReadBody
  | tempoSet (tempo : BitVec 16) : IsBody p (tempoSetBody tempo)
  | tempoGlide (tempo duration : BitVec 16) : IsBody p (tempoGlideBody tempo duration)
  | tempoCurve (slope curvature count : BitVec 32) : IsBody p (tempoCurveBody slope curvature count)
  | meterSet (meter : Byte) : IsBody p (meterSetBody meter)
  | cueSet (bar : BitVec 16) (beat flags : Byte) : IsBody p (cueSetBody p bar beat flags)
  | beatMode (mode : Byte) : IsBody p (beatModeBody p mode)
  | chanSetup (chan : Byte) (fields : SetupFields) : IsBody p (chanSetupBody chan fields)
  | chanCurve (chan : Byte) (knots : Vector KnotFields 8) : IsBody p (chanCurveBody chan knots)
  | chanRelease (chan : Byte) : IsBody p (chanReleaseBody chan)
  | chanRead (chan : Byte) : IsBody p (chanReadBody chan)
  | cellsWrite (start : BitVec 16) (data : List Byte) : IsBody p (cellsWriteBody p start data)
  | cellsRead (start : BitVec 16) (count : Byte) : IsBody p (cellsReadBody p start count)
  | phrasePost (start : BitVec 16) (mode : Byte) (value : BitVec 32) : IsBody p (phrasePostBody p start mode value)
  | portStop (mode : Byte) : IsBody p (portStopBody p mode)
  | portFlush : IsBody p (portFlushBody p)
  | portGo : IsBody p (portGoBody p)
  | strike (chan velocity flags : Byte) : IsBody p (strikeBody p chan velocity flags)
  | holdSet (chan action level : Byte) : IsBody p (holdSetBody p chan action level)
  | portRead : IsBody p (portReadBody p)
  | sysSetup (fields : SettingsFields) : IsBody p (sysSetupBody fields)
  | sysRead : IsBody p sysReadBody
  | supplyAck : IsBody p supplyAckBody
  | chainScan (chain : Byte) : IsBody p (chainScanBody chain)
  | chainRead (chain : Byte) : IsBody p (chainReadBody chain)
  | timingRead : IsBody p timingReadBody
  | doneRead : IsBody p (doneReadBody p)
  | filterSet (filter mark : Byte) : IsBody p (filterSetBody p filter mark)
  | noteMask (selection : BitVec 16) : IsBody p (noteMaskBody p selection)
  | noteEdge (edges : Byte) : IsBody p (noteEdgeBody p edges)
  | noteClear (selection : BitVec 16) : IsBody p (noteClearBody p selection)
  | noteForce (selection : BitVec 16) : IsBody p (noteForceBody p selection)
  | noteRead : IsBody p (noteReadBody p)
  /-- A refusal for a payload length that the kind does not allow (R188). -/
  | refused (code : ReplyCode) : IsBody p (refuse code)

theorem exactly_isBody {p : Port} {n : Nat} {l : List Byte} {body : Body} (h : IsBody p body) :
    IsBody p (exactly n l body) := by
  unfold exactly
  split
  · exact h
  · exact .refused _

theorem cellsWritePayload_isBody (p : Port) (l : List Byte) : IsBody p (cellsWritePayload p l) := by
  unfold cellsWritePayload
  split
  · exact .refused _
  · exact .cellsWrite _ _

/-- Every row of the request table is one of these blocks. -/
theorem requestTable_isBody (p : Port) (l : List Byte) : ∀ x ∈ requestTable p l, IsBody p x.2 := by
  unfold requestTable
  refine List.forall_mem_cons.mpr ⟨exactly_isBody .portReset, ?_⟩
  refine List.forall_mem_cons.mpr ⟨exactly_isBody (.runStop true _), ?_⟩
  refine List.forall_mem_cons.mpr ⟨exactly_isBody (.runStop false _), ?_⟩
  refine List.forall_mem_cons.mpr ⟨exactly_isBody (.clkPlace _ _ _ _), ?_⟩
  refine List.forall_mem_cons.mpr ⟨exactly_isBody .clkRead, ?_⟩
  refine List.forall_mem_cons.mpr ⟨exactly_isBody (.tempoSet _), ?_⟩
  refine List.forall_mem_cons.mpr ⟨exactly_isBody (.tempoGlide _ _), ?_⟩
  refine List.forall_mem_cons.mpr ⟨exactly_isBody (.tempoCurve _ _ _), ?_⟩
  refine List.forall_mem_cons.mpr ⟨exactly_isBody (.meterSet _), ?_⟩
  refine List.forall_mem_cons.mpr ⟨exactly_isBody (.cueSet _ _ _), ?_⟩
  refine List.forall_mem_cons.mpr ⟨exactly_isBody (.beatMode _), ?_⟩
  refine List.forall_mem_cons.mpr ⟨exactly_isBody (.chanSetup _ _), ?_⟩
  refine List.forall_mem_cons.mpr ⟨exactly_isBody (.chanCurve _ _), ?_⟩
  refine List.forall_mem_cons.mpr ⟨exactly_isBody (.chanRelease _), ?_⟩
  refine List.forall_mem_cons.mpr ⟨exactly_isBody (.chanRead _), ?_⟩
  refine List.forall_mem_cons.mpr ⟨cellsWritePayload_isBody p l, ?_⟩
  refine List.forall_mem_cons.mpr ⟨exactly_isBody (.cellsRead _ _), ?_⟩
  refine List.forall_mem_cons.mpr ⟨exactly_isBody (.phrasePost _ _ _), ?_⟩
  refine List.forall_mem_cons.mpr ⟨exactly_isBody (.portStop _), ?_⟩
  refine List.forall_mem_cons.mpr ⟨exactly_isBody .portFlush, ?_⟩
  refine List.forall_mem_cons.mpr ⟨exactly_isBody .portGo, ?_⟩
  refine List.forall_mem_cons.mpr ⟨exactly_isBody (.strike _ _ _), ?_⟩
  refine List.forall_mem_cons.mpr ⟨exactly_isBody (.holdSet _ _ _), ?_⟩
  refine List.forall_mem_cons.mpr ⟨exactly_isBody .portRead, ?_⟩
  refine List.forall_mem_cons.mpr ⟨exactly_isBody (.sysSetup _), ?_⟩
  refine List.forall_mem_cons.mpr ⟨exactly_isBody .sysRead, ?_⟩
  refine List.forall_mem_cons.mpr ⟨exactly_isBody .supplyAck, ?_⟩
  refine List.forall_mem_cons.mpr ⟨exactly_isBody (.chainScan _), ?_⟩
  refine List.forall_mem_cons.mpr ⟨exactly_isBody (.chainRead _), ?_⟩
  refine List.forall_mem_cons.mpr ⟨exactly_isBody .timingRead, ?_⟩
  refine List.forall_mem_cons.mpr ⟨exactly_isBody .doneRead, ?_⟩
  refine List.forall_mem_cons.mpr ⟨exactly_isBody (.filterSet _ _), ?_⟩
  refine List.forall_mem_cons.mpr ⟨exactly_isBody (.noteMask _), ?_⟩
  refine List.forall_mem_cons.mpr ⟨exactly_isBody (.noteEdge _), ?_⟩
  refine List.forall_mem_cons.mpr ⟨exactly_isBody (.noteClear _), ?_⟩
  refine List.forall_mem_cons.mpr ⟨exactly_isBody (.noteForce _), ?_⟩
  refine List.forall_mem_cons.mpr ⟨exactly_isBody .noteRead, ?_⟩
  exact List.forall_mem_nil _

theorem mem_of_lookup {α β : Type} [BEq α] {l : List (α × β)} {k : α} {v : β} (h : l.lookup k = some v) :
    ∃ x ∈ l, x.2 = v := by
  induction l with
  | nil => cases h
  | cons y ys ih =>
    unfold List.lookup at h
    split at h
    · cases h; exact ⟨y, List.mem_cons_self .., rfl⟩
    · obtain ⟨x, hx, e⟩ := ih h; exact ⟨x, List.mem_cons_of_mem _ hx, e⟩

/-- The dispatch hands a request to one of these blocks. -/
theorem dispatch_isBody {p : Port} {kind : Byte} {l : List Byte} {body : Body} (h : dispatch p kind l = some body) :
    IsBody p body := by
  obtain ⟨x, hx, rfl⟩ := mem_of_lookup h
  exact requestTable_isBody p l x hx

/-- The commands that are no request and no transaction: line events, board events and time events. -/
def isEvent : Instr → Bool
  | .resetAssert | .resetRelease | .safeEntry | .safeRelease | .sagBegin | .sagEnd | .syncEdge | .beatStep | .glideSnap
  | .curveEnd | .beatoutPulseEnd | .readerPass _ | .presentation | .energisedUntilExpiry _ | .coolingStep | .frameEnd _
  | .reportReceive .. | .reportTake _ | .deadline _ | .scanEnd _ | .monitorWindowEnd | .beatWindowEnd _ => true
  | _ => false

/-- Every command is a request at a port, a NOP, a transaction's opening or close, or an event. -/
theorem exec_kinds (i : Instr) :
    (∃ p body, IsBody p body ∧ ∀ s, exec i s = .next (takeRequest p body s)) ∨
    (∃ p, ∀ s, exec i s = .next (takeNop p s)) ∨ (∃ p, ∀ s, exec i s = execTransactionOpen p s) ∨
    (∃ p bytes extra, ∀ s, exec i s = .next (closeEvent p bytes extra s)) ∨ isEvent i = true :=
  match i with
  | .nop p _ => .inr (.inl ⟨p, fun _ => rfl⟩)
  | .portReset p => .inl ⟨p, _, .portReset, fun _ => rfl⟩
  | .clkRun p mode => .inl ⟨p, _, .runStop true mode, fun _ => rfl⟩
  | .clkStop p mode => .inl ⟨p, _, .runStop false mode, fun _ => rfl⟩
  | .clkPlace p mode tick bar beat => .inl ⟨p, _, .clkPlace mode tick bar beat, fun _ => rfl⟩
  | .clkRead p => .inl ⟨p, _, .clkRead, fun _ => rfl⟩
  | .tempoSet p tempo => .inl ⟨p, _, .tempoSet tempo, fun _ => rfl⟩
  | .tempoGlide p tempo duration => .inl ⟨p, _, .tempoGlide tempo duration, fun _ => rfl⟩
  | .tempoCurve p slope curvature count => .inl ⟨p, _, .tempoCurve slope curvature count, fun _ => rfl⟩
  | .meterSet p meter => .inl ⟨p, _, .meterSet meter, fun _ => rfl⟩
  | .cueSet p bar beat flags => .inl ⟨p, _, .cueSet bar beat flags, fun _ => rfl⟩
  | .beatMode p mode => .inl ⟨p, _, .beatMode mode, fun _ => rfl⟩
  | .chanSetup p chan fields => .inl ⟨p, _, .chanSetup chan fields, fun _ => rfl⟩
  | .chanCurve p chan knots => .inl ⟨p, _, .chanCurve chan knots, fun _ => rfl⟩
  | .chanRelease p chan => .inl ⟨p, _, .chanRelease chan, fun _ => rfl⟩
  | .chanRead p chan => .inl ⟨p, _, .chanRead chan, fun _ => rfl⟩
  | .cellsWrite p start data => .inl ⟨p, _, .cellsWrite start data, fun _ => rfl⟩
  | .cellsRead p start count => .inl ⟨p, _, .cellsRead start count, fun _ => rfl⟩
  | .phrasePost p start mode value => .inl ⟨p, _, .phrasePost start mode value, fun _ => rfl⟩
  | .portStop p mode => .inl ⟨p, _, .portStop mode, fun _ => rfl⟩
  | .portFlush p => .inl ⟨p, _, .portFlush, fun _ => rfl⟩
  | .portGo p => .inl ⟨p, _, .portGo, fun _ => rfl⟩
  | .strike p chan velocity flags => .inl ⟨p, _, .strike chan velocity flags, fun _ => rfl⟩
  | .holdSet p chan action level => .inl ⟨p, _, .holdSet chan action level, fun _ => rfl⟩
  | .portRead p => .inl ⟨p, _, .portRead, fun _ => rfl⟩
  | .sysSetup p fields => .inl ⟨p, _, .sysSetup fields, fun _ => rfl⟩
  | .sysRead p => .inl ⟨p, _, .sysRead, fun _ => rfl⟩
  | .supplyAck p => .inl ⟨p, _, .supplyAck, fun _ => rfl⟩
  | .chainScan p chain => .inl ⟨p, _, .chainScan chain, fun _ => rfl⟩
  | .chainRead p chain => .inl ⟨p, _, .chainRead chain, fun _ => rfl⟩
  | .timingRead p => .inl ⟨p, _, .timingRead, fun _ => rfl⟩
  | .doneRead p => .inl ⟨p, _, .doneRead, fun _ => rfl⟩
  | .filterSet p filter mark => .inl ⟨p, _, .filterSet filter mark, fun _ => rfl⟩
  | .noteMask p selection => .inl ⟨p, _, .noteMask selection, fun _ => rfl⟩
  | .noteEdge p edges => .inl ⟨p, _, .noteEdge edges, fun _ => rfl⟩
  | .noteClear p selection => .inl ⟨p, _, .noteClear selection, fun _ => rfl⟩
  | .noteForce p selection => .inl ⟨p, _, .noteForce selection, fun _ => rfl⟩
  | .noteRead p => .inl ⟨p, _, .noteRead, fun _ => rfl⟩
  | .transactionOpen p => .inr (.inr (.inl ⟨p, fun _ => rfl⟩))
  | .transactionClose p bytes extra => .inr (.inr (.inr (.inl ⟨p, bytes, extra, fun _ => rfl⟩)))
  | .resetAssert => .inr (.inr (.inr (.inr rfl)))
  | .resetRelease => .inr (.inr (.inr (.inr rfl)))
  | .safeEntry => .inr (.inr (.inr (.inr rfl)))
  | .safeRelease => .inr (.inr (.inr (.inr rfl)))
  | .sagBegin => .inr (.inr (.inr (.inr rfl)))
  | .sagEnd => .inr (.inr (.inr (.inr rfl)))
  | .syncEdge => .inr (.inr (.inr (.inr rfl)))
  | .beatStep => .inr (.inr (.inr (.inr rfl)))
  | .glideSnap => .inr (.inr (.inr (.inr rfl)))
  | .curveEnd => .inr (.inr (.inr (.inr rfl)))
  | .beatoutPulseEnd => .inr (.inr (.inr (.inr rfl)))
  | .readerPass .. => .inr (.inr (.inr (.inr rfl)))
  | .presentation => .inr (.inr (.inr (.inr rfl)))
  | .energisedUntilExpiry .. => .inr (.inr (.inr (.inr rfl)))
  | .coolingStep => .inr (.inr (.inr (.inr rfl)))
  | .frameEnd .. => .inr (.inr (.inr (.inr rfl)))
  | .reportReceive .. => .inr (.inr (.inr (.inr rfl)))
  | .reportTake .. => .inr (.inr (.inr (.inr rfl)))
  | .deadline .. => .inr (.inr (.inr (.inr rfl)))
  | .scanEnd .. => .inr (.inr (.inr (.inr rfl)))
  | .monitorWindowEnd => .inr (.inr (.inr (.inr rfl)))
  | .beatWindowEnd .. => .inr (.inr (.inr (.inr rfl)))

/-- What a property must be kept by, to be kept by every step. -/
structure Kept (Inv : State → Prop) : Prop where
  /-- The queue of commands and the counter of free values are no part of it. -/
  queue : ∀ s q n, Inv s → Inv { s with pending := q, freeCount := n }
  /-- The links of the ports are no part of it. -/
  link : ∀ s p f, Inv s → Inv (s.modLink p f)
  /-- Each block's work keeps it. -/
  body : ∀ s p body, IsBody p body → s.resetLow = false → Inv s → Inv (body s).1
  /-- Each event keeps it. -/
  event : ∀ i s t, isEvent i = true → Inv s → exec i s = .next t → Inv t
  /-- A microsecond of stage time keeps it. -/
  tick : ∀ s, Inv s → Inv s.tick

theorem State.reply_eq_modLink (s : State) (p : Port) (r : Reply) :
    s.reply p r = s.modLink p fun k => { k with reply := some r } := rfl

theorem Kept.reply {Inv : State → Prop} (h : Kept Inv) {s : State} (p : Port) (r : Reply) (hs : Inv s) :
    Inv (s.reply p r) := by
  rw [State.reply_eq_modLink]; exact h.link _ _ _ hs

theorem Kept.takeRequest {Inv : State → Prop} (h : Kept Inv) {p : Port} {body : Body} (hb : IsBody p body) {s : State}
    (hs : Inv s) : Inv (takeRequest p body s) := by
  rcases takeRequest_cases p body s with ⟨-, e⟩ | ⟨-, -, e⟩ | ⟨hr, -, e⟩
  · rw [e]; exact hs
  · rw [e]; exact h.reply _ _ hs
  · rw [e]; exact h.reply _ _ (h.body s p body hb hr hs)

theorem Kept.takeNop {Inv : State → Prop} (h : Kept Inv) (p : Port) {s : State} (hs : Inv s) : Inv (takeNop p s) := by
  unfold Machine.takeNop
  split
  · exact hs
  · exact h.reply _ _ hs

theorem Kept.takeReceived {Inv : State → Prop} (h : Kept Inv) (p : Port) {s : State} (hs : Inv s) :
    Inv (takeReceived p s) := by
  unfold Machine.takeReceived
  split
  · exact h.reply _ _ hs
  · split
    · exact h.takeNop p hs
    · split
      · exact h.reply _ _ hs
      · rename_i hd
        exact h.takeRequest (dispatch_isBody hd) hs

/-- A property so kept is kept by every command. -/
theorem Kept.exec {Inv : State → Prop} (h : Kept Inv) {i : Instr} {s t : State} (hs : Inv s)
    (he : exec i s = .next t) : Inv t := by
  rcases exec_kinds i with ⟨p, body, hb, e⟩ | ⟨p, e⟩ | ⟨p, e⟩ | ⟨p, bytes, extra, e⟩ | e
  · rw [e] at he; cases he; exact h.takeRequest hb hs
  · rw [e] at he; cases he; exact h.takeNop p hs
  · rw [e, execTransactionOpen] at he
    cases he
    split <;> exact h.link _ _ _ hs
  · rw [e] at he; cases he
    unfold closeEvent
    split
    · exact h.link _ _ _ hs
    · split
      · exact h.link _ _ _ hs
      · exact h.takeReceived p (h.link _ _ _ hs)
  · exact h.event i s t e hs he

/-- A property so kept is kept by every step. -/
theorem Kept.step {Inv : State → Prop} (h : Kept Inv) {s t : State} (hs : Inv s) (he : step s = .next t) : Inv t := by
  unfold Machine.step at he
  split at he
  · exact h.exec (h.queue s _ s.freeCount hs) he
  · unfold idleStep at he
    split at he
    · cases he; exact h.tick s hs
    · exact h.exec hs he
    · exact h.exec (h.queue s s.pending _ hs) he

end Sys2Proof.Machine
end

