-- ==== Sys2Proof/Laws/Reading.lean ====
section
/-! SUPPORT. The reader pass as a run of small moves, so that a property of all passes is proved move by move. -/

namespace Sys2Proof.Machine

/-- One move of a reading at port `p`. -/
inductive ReadMove (p : Port) : State → State → Prop where
  /-- Outcomes, notices, holds, settlings and changes of open records that make none READING. -/
  | work {s t : State} (h : s.Worked t) : ReadMove p s t
  /-- SET_LEVEL (R51). -/
  | level (s : State) (n : Nat) : ReadMove p s (s.modReader p fun rd => { rd with level := n })
  /-- The chain end that an end of reading sets (R65). -/
  | chainEnd (s : State) (e : Option ChainEnd) : ReadMove p s (s.modReader p fun rd => { rd with chainEnd := e })
  /-- The take of a phrase (R60). -/
  | take {s t : State} (h : s.takePhrase p = some t) : ReadMove p s t
  /-- An arming; an entry it offers holds its one reference (R67, R68). -/
  | arm (s : State) (ref : OwnerRef) (a : Arm) (h : ∀ e, a = .offer e → e.owners = [ref]) :
      ReadMove p s (s.arm ref a).2
  /-- A tempo cue filed (R12). -/
  | cue (s : State) (cue : TempoCue) (clock : Clock) (h : s.clock.fileCue cue = some clock) :
      ReadMove p s (s.modClock fun _ => clock)

/-- A run of moves. -/
inductive ReadMoves (p : Port) : State → State → Prop where
  | refl (s : State) : ReadMoves p s s
  | step {s t u : State} (h : ReadMoves p s t) (k : ReadMove p t u) : ReadMoves p s u

theorem ReadMoves.one {p : Port} {s t : State} (h : ReadMove p s t) : ReadMoves p s t := .step (.refl s) h

theorem ReadMoves.trans {p : Port} {s t u : State} (h : ReadMoves p s t) (k : ReadMoves p t u) : ReadMoves p s u := by
  induction k with
  | refl => exact h
  | step _ m ih => exact .step ih m

/-- A property kept by each move is kept by a run of moves. -/
theorem ReadMoves.kept {p : Port} {Inv : State → Prop} (h : ∀ s t, ReadMove p s t → Inv s → Inv t) {s t : State}
    (m : ReadMoves p s t) (hs : Inv s) : Inv t := by
  induction m with
  | refl => exact hs
  | step _ k ih => exact h _ _ k ih

/-! ### Armings offer an entry with its one reference -/

theorem State.armEntry_owners {s : State} {ref : OwnerRef} {action : Action} {target fire ideal : StageTime} {e : Entry}
    (h : s.armEntry ref action target fire ideal = .offer e) : e.owners = [ref] ∧ e.action = action := by
  unfold State.armEntry at h
  split at h
  · cases h
  · cases h; exact ⟨rfl, rfl⟩

theorem State.armStrike_owners {s : State} {ref : OwnerRef} {level velocity : Nat} {accent : Bool} {c : ChanId}
    {target : Figures → StageTime} {e : Entry} (h : s.armStrike ref level velocity accent c target = .offer e) :
    e.owners = [ref] := by
  unfold State.armStrike at h
  split at h
  · cases h
  · split at h
    · cases h
    · exact (State.armEntry_owners h).1

theorem State.armHold_owners {s : State} {ref : OwnerRef} {c : ChanId} {action : Action} {target : StageTime} {e : Entry}
    (h : s.armHold ref c action target = .offer e) : e.owners = [ref] := by
  unfold State.armHold at h
  split at h
  · cases h
  · exact (State.armEntry_owners h).1

/-! ### The moves of one cell -/

theorem State.programError_worked (s : State) (p : Port) (error : ProgramError) : s.Worked (s.programError p error) :=
  State.modPort_worked (PortRec.hold_worked s.now (.program error)) s p

theorem State.modRecord_worked (s : State) (p : Port) {serial : BitVec 8} {f : OpenRec → OpenRec}
    (hf : ∀ o, (f o).reading = .reading → o.reading = .reading) :
    s.Worked (s.modReader p (Reader.modRecord serial f)) :=
  State.modPort_worked (fun r => PortRec.modRecord_worked hf r) s p

theorem State.stepPast_worked (s : State) (p : Port) (o : OpenRec) : s.Worked (s.stepPast p o) := by
  refine s.modRecord_worked p ?_
  exact fun _ h => h

@[simp] theorem State.unlessHeld_state (s : State) (p : Port) : (s.unlessHeld p).state = s := by
  unfold State.unlessHeld; split <;> rfl

theorem State.readLink_worked (s : State) (p : Port) (o : OpenRec) (target : Nat) :
    s.Worked (s.readLink p o target).state := by
  unfold State.readLink
  split
  · refine s.modRecord_worked p ?_
    exact fun _ h => h
  · exact s.programError_worked p .linkLoop

/-- The end of reading is the record ENDED, the chain end set, and a port at work. -/
theorem State.endReading_moves (s : State) (p : Port) (o : OpenRec) : ReadMoves p s (s.endReading p o) := by
  let e : Option ChainEnd :=
    if o.length = 0 then none else some { clock := o.clock, pos := plus (o.passOrigin o.pass) o.length }
  let s1 := s.modReader p (Reader.modRecord o.serial fun x => { x with reading := .ended })
  let s2 := s1.modReader p fun rd => { rd with chainEnd := e }
  have h1 : s.Worked s1 := s.modRecord_worked p (by intro _ h; cases h)
  have h3 : s2.Worked (s2.modPort p fun r =>
      ((r.modUnit (NoticeUnit.raise s.now .readEnd)).finishIfDone s.now o.serial).settle s.now) :=
    State.modPort_worked (fun r => ((PortRec.raise_worked ..).trans (PortRec.finishIfDone_worked ..)).trans
      (PortRec.settle_worked ..)) s2 p
  have he : s.endReading p o = s2.modPort p fun r =>
      ((r.modUnit (NoticeUnit.raise s.now .readEnd)).finishIfDone s.now o.serial).settle s.now := by
    simp [State.endReading, s2, s1, State.modReader, State.modPort, PortRec.modReader, e]
  rw [he]
  exact (((ReadMoves.refl s).step (.work h1)).step (.chainEnd s1 e)).step (.work h3)

theorem State.readPassEnd_moves (s : State) (p : Port) (o : OpenRec) : ReadMoves p s (s.readPassEnd p o).state := by
  unfold State.readPassEnd
  split
  · simp only
    split
    · rename_i h
      exact (s.endReading_moves p o).step (.take h)
    · exact s.endReading_moves p o
  · split
    · exact .refl s
    · refine .one (.work (s.modRecord_worked p ?_))
      exact fun _ h => h

theorem State.consumeArmed_moves {s past : State} {p : Port} {ref : OwnerRef} {a : Arm} (hp : s.Worked past)
    (ha : ∀ e, a = .offer e → e.owners = [ref]) : ReadMoves p s (s.consumeArmed past p ref a).state := by
  unfold State.consumeArmed
  split
  · exact .refl s
  · rename_i s' _ h
    rw [State.unlessHeld_state]
    have e : (past.arm ref a).2 = s' := by rw [h]
    exact e ▸ (ReadMoves.one (.work hp)).step (.arm past ref a ha)

theorem State.offerCue_moves {s past : State} {p : Port} {ref : OwnerRef} {cue : TempoCue} (hp : s.Worked past) :
    ReadMoves p s (past.offerCue p ref cue).state := by
  unfold State.offerCue
  split
  · rename_i clock h
    exact ((ReadMoves.one (.work hp)).step (.cue past cue clock h)).step (.work (State.referenced_worked ..))
  · rw [State.unlessHeld_state]
    exact (ReadMoves.one (.work hp)).step
      (.work ((State.referenced_worked ..).trans (State.deliver_worked ..)))

theorem State.actOn_moves (s : State) (p : Port) (o : OpenRec) (cell : Cell) (target : StageTime) :
    ReadMoves p s (s.actOn p o cell target).state := by
  have hp := s.stepPast_worked p o
  unfold State.actOn
  simp only
  split
  · split
    · exact .one (.work hp)
    · exact State.consumeArmed_moves hp (fun e h => State.armStrike_owners h)
  · exact State.consumeArmed_moves hp (fun e h => State.armHold_owners h)
  · split
    · exact State.consumeArmed_moves hp (fun e h => (State.armEntry_owners h).1)
    · exact .one (.work hp)
  · exact (ReadMoves.one (.work hp)).step (.level _ _)
  · exact State.offerCue_moves hp
  · exact .refl s

theorem State.readTimed_moves (s : State) (p : Port) (o : OpenRec) (cell : Cell) (offset : Nat) :
    ReadMoves p s (s.readTimed p o cell offset).state := by
  unfold State.readTimed
  split
  · exact .refl s
  · split
    · rw [State.unlessHeld_state]
      exact .one (.work (((s.stepPast_worked p o).trans (State.referenced_worked ..)).trans (State.deliver_worked ..)))
    · exact s.actOn_moves p o cell _

/-- Reading one cell is a run of moves. -/
theorem State.readOne_moves (s : State) (p : Port) : ReadMoves p s (s.readOne p).state := by
  unfold State.readOne
  split
  · exact .refl s
  · split
    · exact .one (.work (s.programError_worked p .addressEnd))
    · simp only
      split
      · exact s.readPassEnd_moves p _
      · exact s.readPassEnd_moves p _
      · exact .one (.work (s.readLink_worked p _ _))
      · exact .one (.work (s.programError_worked p .badKind))
      · exact s.readTimed_moves p _ _ _
      · exact s.readTimed_moves p _ _ _
      · exact s.readTimed_moves p _ _ _
      · exact s.readTimed_moves p _ _ _
      · exact s.readTimed_moves p _ _ _

theorem State.readOn_moves {fuel : Nat} {p : Port} {s t : State} (h : State.readOn fuel p s = some t) :
    ReadMoves p s t := by
  induction fuel generalizing s with
  | zero => cases h
  | succ n ih =>
    unfold State.readOn at h
    have m := s.readOne_moves p
    split at h
    · rename_i heq; cases h; rw [heq] at m; exact m
    · rename_i heq; rw [heq] at m; exact m.trans (ih h)

/-- What a reader pass can do: its beginning and, unless SAFE is asserted or the port is HELD, a run of moves (R62). -/
theorem State.readerPass_moves {s t : State} {p : Port} (h : s.readerPass p = some t) :
    t = s.beginPass p ∨ (s.safeLow = false ∧ ReadMoves p (s.beginPass p) t) := by
  unfold State.readerPass at h
  simp only at h
  split at h
  · cases h; exact .inl rfl
  · rename_i hg
    right
    simp only [Bool.or_eq_true, not_or, Bool.not_eq_true] at hg
    refine ⟨by simpa [State.beginPass] using hg.1, ?_⟩
    split at h
    · rename_i s' hs'
      cases h
      have hm : ReadMoves p (s.beginPass p) s' := by
        cases ht : (s.beginPass p).takePhrase p with
        | none => rw [ht] at hs'; exact State.readOn_moves hs'
        | some u => rw [ht] at hs'; exact (ReadMoves.one (.take ht)).trans (State.readOn_moves hs')
      exact hm.step (.work (State.modPort_worked (PortRec.settle_worked _) _ p))
    · cases h

end Sys2Proof.Machine
end

