-- ==== Sys2Proof/Tests/Slice0.lean ====
section
/-! SUPPORT. Small tests with results taken from the manual's tables and examples, and witnesses: for each statement
with hypotheses, a concrete state and operands that meet them, clause by clause at a boundary of its range. -/

namespace Sys2Proof.Tests

set_option Elab.async false

open Sys2Proof Sys2Proof.Machine

/-- The part past its start-up interval, with every block at its pin-reset values. -/
def base : State := { State.reset with resetLow := false }

/-- The state after a command that answers a next state. -/
def after (i : Instr) (s : State) : Option State :=
  match exec i s with
  | .next t => some t
  | _ => none

/-- Something read of the state after a command. -/
def see {α : Type} (i : Instr) (s : State) (f : State → α) : Option α := (after i s).map f

/-- A READY channel of a kind. -/
def withReady (c : ChanId) (k : Kind) (s : State) : State :=
  s.modChan c fun ch => { ch with presence := .ready, kind := some k }

/-- A scan begun at 0 that listens for every board. -/
def scanOf (kind : ScanKind) (found : Vector (Option Byte) 4) : Scan := ⟨0, kind, found, Vector.replicate 4 true⟩

/-- No board found. -/
def none4 : Vector (Option Byte) 4 := Vector.replicate 4 none

/-- The reply code that waits at a port. -/
def replyCode (p : Port) (s : State) : Option ReplyCode := (s.port p).link.reply.map Reply.code

/-! ### Well-formed commands -/

/-- R186: a request frame carries at most 248 payload bytes. -/
theorem test_nop_too_long_is_ill_formed : (Instr.nop 0 (List.replicate 249 0)).wellFormed = false := by
  decide +kernel

theorem test_nop_of_248_is_well_formed : (Instr.nop 0 (List.replicate 248 0)).wellFormed = true := by decide +kernel

/-- R42 and R186: CELLS_WRITE spends two of the 248 bytes on its start address. -/
theorem test_cells_write_too_long_is_ill_formed :
    (Instr.cellsWrite 0 0 (List.replicate 247 0)).wellFormed = false := by decide +kernel

/-- No row of the table gives bits, so no word spells a command. -/
theorem test_no_word_spells_a_command : decodeTableWord 32 1 = none := rfl

/-! ### The manual's tables -/

/-- The rate words of R3's table. -/
theorem test_rate_table :
    [1000, 6000, 10000, 12000, 30000].map (fun h => (rateOfTempo h).toNat) =
      [137438954, 824633721, 1374389535, 1649267442, 4123168604] := by decide +kernel

/-- The tempos that R3's rate words read back as. -/
theorem test_rate_table_reads_back :
    [137438954, 824633721, 1374389535, 1649267442, 4123168604].map (fun w => tempoOfRate (BitVec.ofNat 32 w)) =
      [1000, 6000, 10000, 12000, 30000] := by decide +kernel

/-- The strokes of R80's table, with the default accent boost. -/
theorem test_effective_velocity_table :
    [effectiveVelocity 100 128 false 12, effectiveVelocity 100 64 false 12, effectiveVelocity 1 64 false 12,
     effectiveVelocity 1 63 true 12, effectiveVelocity 90 150 false 12, effectiveVelocity 100 150 true 12,
     effectiveVelocity 127 255 false 12] =
      [some 100, some 50, some 1, none, some 105, some 127, some 127] := by decide +kernel

/-- The figures of R84's table on the default curve. -/
theorem test_curve_table :
    [1, 64, 100, 127].map (fun v => let f := figuresOf Channel.reset v; [f.seg, f.off, f.pulse, f.flight]) =
      [[0, 0, 40, 3000], [3, 9, 165, 1825], [5, 9, 285, 1425], [6, 18, 400, 1250]] := by decide +kernel

/-- The frame times of R85's table. -/
theorem test_frame_time_table :
    [(1, 2), (1, 8), (1, 32), (2, 2), (2, 8), (2, 32), (4, 2), (4, 8), (4, 32)].map
      (fun x => ({ Settings.reset with bitRate := x.1, gapBits := x.2 } : Settings).frameTime) =
      [34, 40, 64, 17, 20, 32, 9, 10, 16] := by decide +kernel

/-- The corrections of R93's table, with adapt shift 3. -/
theorem test_correction_table :
    [57, 4, 3, -4, -5, -20, -21].map (fun e => correction e 3) = [7, 1, 0, 0, -1, -2, -3] := by decide +kernel

/-- The shares of the worked stroke after R95: δ 7 at offset 14 gives 2 to the lower knot. -/
theorem test_lower_share : lowerShare 7 14 = 2 := by decide +kernel

/-- R199: the CRC-8 of 01₁₆ alone is 07₁₆. -/
theorem test_crc_of_01 : crc8 [0x01] = 0x07 := by decide +kernel

/-- R199: the PORT_RESET frame and the empty NOP frame. -/
theorem test_frames_of_r199 : frameOf 0x01 [] = [0x01, 0x00, 0x15] ∧ frameOf 0x00 [] = [0, 0, 0] := by decide +kernel

/-- The sum of S after a step of the worked glide, and its slope and step count. -/
theorem test_worked_glide_starts :
    (see (.tempoGlide 0 12000 2000) (base.modClock fun c => { c with rate := 1374389535 }) fun t => t.clock.ramp) =
      some (.glide 1649267442 68719 4000) := by decide +kernel

/-- The worked glide after its first running step. -/
theorem test_worked_glide_first_step :
    (see .beatStep (base.modClock fun c =>
        { c with rate := 1374389535, running := true, nextBeat := 0, ramp := .glide 1649267442 68719 4000 })
      fun t => (t.clock.pos.toNat, t.clock.rate.toNat, t.clock.ramp)) =
      some (1374389535, 1374458254, .glide 1649267442 68719 3999) := by decide +kernel

/-- The worked glide's snap: 1,649,265,535 and then 1,907 more. -/
theorem test_worked_glide_snaps :
    (see .glideSnap (base.modClock fun c =>
        { c with rate := 1649196816, running := true, ramp := .glide 1649267442 68719 1 })
      fun t => (t.clock.rate.toNat, t.clock.ramp)) = some (1649267442, .none) := by decide +kernel

/-- The target of the worked beat stroke after R95: tick 3936 from tick 3840 at 120 BPM is 125,000 µs ahead. -/
theorem test_worked_target :
    ({ Clock.reset with pos := 3840 * 4294967296, tB := 10000000 } : Clock).targetOfTick 3936 = some 10125000 := by
  decide +kernel

/-- A report frame of R203: CONTACT, board 0, output 7, tag 0, flight 1390. -/
theorem test_contact_is_read :
    decodeReport (0b1_00_111_00#8 ++ (1390#16 ++ crc8 [0x9C, 0x05, 0x6E])) =
      some (.report (.contact 0 1390) 0 7) := by decide +kernel

/-- The damper table before section 7.6: heat limit 200, rate 8, level 255. -/
theorem test_damper_heats :
    [0, 64, 126, 187].map (fun h =>
      (Channel.cool { Channel.reset with
        heat := h
        hold := some ⟨255, some 2⟩
        scalars := { Channel.reset.scalars with heatLimit := 200 } }).heat) = [64, 126, 187, 200] := by
  decide +kernel

/-- The bins of R165. -/
theorem test_bins :
    [0, 49, 50, 199, 200, 500, 1000, 2000, 5000, 9999, 10000].map (fun x => (binOf x).val) =
      [0, 0, 1, 1, 2, 3, 4, 5, 6, 6, 7] := by decide +kernel

/-- The admission table of R101: the counts of P0, P1 and P2, and which of them may insert. -/
def crowd (n0 n1 n2 : Nat) : List Entry :=
  let e (p : Port) : Entry :=
    { action := .mark, target := 0, fire := 0, ideal := 0, send := 0, owners := [OwnerRef.bare p], merged := false,
      retimed := false, immediate := false }
  List.replicate n0 (e 0) ++ List.replicate n1 (e 1) ++ List.replicate n2 (e 2)

theorem test_admission_table :
    [crowd 150 20 10, crowd 192 20 10, crowd 192 32 32, crowd 100 40 0].map
      (fun l => (sharedUse l, admits l 0, admits l 1, admits l 2)) =
      [(118, true, true, true), (160, false, true, true), (160, false, false, false), (76, true, true, true)] := by
  decide +kernel

/-! ### One step of each kind of command -/

/-- R189: a NOP frame is answered OK, and the reply of before is shifted out meanwhile. -/
theorem test_nop_transaction :
    (see (.transactionClose 0 [0, 0, 0] 0)
      (base.modLink 0 fun k => { k with isOpen := true, reply := some (Reply.bare .range) })
      fun t => (replyCode 0 t, (t.port 0).link.sdo)) = some (some .ok, [0x83, 0, crc8 [0x83, 0]]) := by decide +kernel

/-- R187 step 1: a bad check byte. -/
theorem test_bad_check :
    (see (.transactionClose 0 [1, 0, 0x14] 0) (base.modLink 0 fun k => { k with isOpen := true }) (replyCode 0)) =
      some (some .badFrame) := by decide +kernel

/-- R187 step 1: bits after the last whole byte. -/
theorem test_incomplete_byte :
    (see (.transactionClose 0 [1, 0, 0x15] 3) (base.modLink 0 fun k => { k with isOpen := true }) (replyCode 0)) =
      some (some .badFrame) := by decide +kernel

/-- R187 step 2: kind 02₁₆ names no request. -/
theorem test_unknown_kind :
    (see (.transactionClose 0 (frameOf 2 []) 0) (base.modLink 0 fun k => { k with isOpen := true }) (replyCode 0)) =
      some (some .unknown) := by decide +kernel

/-- R188: a payload length that the kind does not allow. -/
theorem test_wrong_length :
    (see (.transactionClose 0 (frameOf 0x14 [1]) 0) (base.modLink 0 fun k => { k with isOpen := true })
      (replyCode 0)) = some (some .range) := by decide +kernel

/-- R197: TEMPO_SET carries its tempo most significant byte first. -/
theorem test_tempo_set_frame :
    (see (.transactionClose 0 (frameOf 0x14 [0x17, 0x70]) 0) (base.modLink 0 fun k => { k with isOpen := true })
      fun t => t.clock.rate.toNat) = some 824633721 := by decide +kernel

/-- R184: a close with no whole byte keeps the reply. -/
theorem test_empty_transaction :
    (see (.transactionClose 1 [] 5)
      (base.modLink 1 fun k => { k with isOpen := true, reply := some (Reply.bare .full) }) (replyCode 1)) =
      some (some .full) := by decide +kernel

theorem test_transaction_open : (see (.transactionOpen 2) base fun t => (t.port 2).link.isOpen) = some true := by
  decide +kernel

/-- R196: the release starts the scans, and a request is refused meanwhile. -/
theorem test_release_starts_up : (see .resetRelease State.reset State.inStartUp) = some true := by decide +kernel

theorem test_reset_assert : (see .resetAssert base State.resetLow) = some true := by decide +kernel

/-- R190: a refusal while a beat phrase is queued. -/
theorem test_place_shared :
    (see (.clkPlace 0 0 5 1 2)
      (base.modReader 1 fun rd =>
        { rd with queue := [⟨0, 0, .nextBar, ⟨.beat, false, false, 0, 0⟩, false⟩] }) (replyCode 0)) =
      some (some .clockShared) := by decide +kernel

/-- R8: the crossing from tick 383 in the last beat of the bar is a bar line, with a pulse of 10 ms (R11). -/
theorem test_bar_line :
    (see .beatStep (base.modClock fun c =>
        { c with running := true, pos := 384 * 4294967296 - 1, beat := 3, pendingMeter := some 3 })
      fun t => (t.clock.beat, t.clock.bar, t.clock.meter, t.clock.beatout)) =
      some (0, 1, 3, some 10000) := by decide +kernel

/-- R13: a due cue of duration 0 sets the rate. -/
theorem test_due_cue :
    (see .beatStep (base.modClock fun c =>
        { c with running := true, cues := [⟨0, 6000, 0, OwnerRef.bare 0⟩] })
      fun t => (t.clock.rate.toNat, t.clock.cues)) = some (824633721, []) := by decide +kernel

/-- R7: at its last step a curve leaves W + S. -/
theorem test_curve_ends :
    (see .curveEnd (base.modClock fun c => { c with running := true, ramp := .curve (-442) 7 1 })
      fun t => (t.clock.rate.toNat, t.clock.ramp)) = some (1649267000, .none) := by decide +kernel

theorem test_beatout_ends :
    (see .beatoutPulseEnd (base.modClock fun c => { c with beatout := some 0 }) fun t => t.clock.beatout) =
      some none := by decide +kernel

/-- R30: a knot out of its range is taken into it, with CLAMPED. -/
theorem test_curve_clamps :
    (see (.chanCurve 0 45 (Vector.replicate 8 ⟨2500, 6400⟩)) base
      fun t => (replyCode 0 t, (t.chan 45).knots[0])) = some (some .clamped, ⟨2000, 6000⟩) := by decide +kernel

/-- The setup of channel 45 in chapter 02: heat 0 and READY on a present board. -/
theorem test_setup_settles :
    (see (.chanSetup 2 45 ⟨1, 30, 900, 60, 15000, 10, 3, 2⟩)
      (base.modChain 1 fun ch => { ch with boards := #v[some 0, some 0, some 0, none] })
      fun t => (replyCode 2 t, (t.chan 45).presence, (t.chan 45).scalars.missLimit)) =
      some (some .ok, .ready, 2) := by decide +kernel

/-- R33: a channel that is not FAULTED cannot be released. -/
theorem test_release_unfaulted : (see (.chanRelease 0 3) base (replyCode 0)) = some (some .state) := by decide +kernel

/-- R42: a write reaches its cell and no other. -/
theorem test_cells_write :
    (see (.cellsWrite 1 2047 [1, 2, 3, 4, 5, 6, 7, 8]) base
      fun t => (replyCode 1 t, readCell (t.port 1).mem 2047, (t.port 0).mem)) =
      some (some .ok, [1, 2, 3, 4, 5, 6, 7, 8], []) := by decide +kernel

theorem test_cells_write_past_the_end :
    (see (.cellsWrite 1 2047 (List.replicate 16 0)) base (replyCode 1)) = some (some .range) := by decide +kernel

/-- R58 check 3: an all-zero cell is an END and no HEAD. -/
theorem test_bad_phrase : (see (.phrasePost 0 0 4 0) base (replyCode 0)) = some (some .badPhrase) := by decide +kernel

/-- A region with a free phrase of one pass at address 10: a HEAD of length 400,000, a STROKE on channel 64 at
velocity 100, and an END (the first phrase of the example after R79). -/
def region : List Host.Cell :=
  writeBytes [] 80 [0x11, 0, 0, 0, 0x00, 0x06, 0x1A, 0x80, 0x02, 64, 100, 0, 0, 0, 0, 0]

theorem test_head_is_read :
    decodeCell (readCell region 10) = .head ⟨.free, false, false, 0, 400000⟩ := by decide +kernel

theorem test_stroke_is_read : decodeCell (readCell region 11) = .stroke 64 100 false false 0 := by decide +kernel

/-- R58: a post takes the next serial and leaves the port IDLE. -/
theorem test_post :
    (see (.phrasePost 1 10 3 150000) (base.modPort 1 fun r => { r with mem := region })
      fun t => (((t.port 1).link.reply.map Reply.payload), (t.port 1).reader.queue.length, (t.port 1).reader.state)) =
      some (some [0], 1, .idle) := by decide +kernel

/-- The take of that phrase: origin 1,150,300, and cell 11 waits beyond the horizon. -/
theorem test_pass_takes :
    (see (.readerPass 1)
      { (base.modPort 1 fun r => { r with mem := region, reader := { r.reader with
          queue := [⟨0, 10, .nowPlus 150000, ⟨.free, false, false, 0, 400000⟩, false⟩] } }) with now := 1000300 }
      fun t => ((t.port 1).reader.state, (t.port 1).reader.opened.map fun o => (o.origin.toNat, o.addr))) =
      some (.playing, [(1150300, 11)]) := by decide +kernel

/-- R66: a LINK that targets itself stops the port at the seventeenth of its run. -/
theorem test_link_loop :
    (see (.readerPass 0)
      (base.modPort 0 fun r => { r with mem := writeBytes [] 8 [4, 0, 0, 1, 0, 0, 0, 0], reader := { r.reader with
          queue := [⟨0, 0, .nowPlus 0, ⟨.free, false, false, 0, 0⟩, false⟩] } })
      fun t => (t.port 0).reader.state) = some (.held (.program .linkLoop)) := by decide +kernel

theorem test_stop_now :
    (see (.portStop 0 1) (base.modReader 0 fun rd =>
        { rd with queue := [⟨0, 0, .nextBar, ⟨.beat, false, false, 0, 0⟩, false⟩] })
      fun t => ((t.port 0).reader.queue, (t.port 0).reader.discards)) = some ([], 1) := by decide +kernel

theorem test_flush_leaves_held :
    (see (.portFlush 0) (base.modReader 0 fun rd => { rd with state := .held .safe })
      fun t => (t.port 0).reader.state) = some .idle := by decide +kernel

theorem test_go_needs_held : (see (.portGo 0) base (replyCode 0)) = some (some .state) := by decide +kernel

/-- R77: an immediate stroke at velocity 100 is sent at its arrival and aimed 20 + 14,250 µs ahead. -/
theorem test_strike_arms :
    (see (.strike 1 7 100 0) { withReady 7 .strike base with now := 19981000 }
      fun t => ((t.port 1).link.reply.map Reply.payload, t.timeline.map fun e => (e.send.toNat, e.target.toNat))) =
      some (some [0x20], [(19981000, 19995270)]) := by decide +kernel

/-- The merge of "Two masters on one bar": the entry keeps its target and takes the harder figures. -/
theorem test_strike_merges :
    (see (.strike 1 7 100 0)
      { withReady 7 .strike base with
        now := 19981000
        timeline := [{ action := .strike 7 (figuresOf Channel.reset 64), target := 20000000, fire := 19981750,
                       ideal := 19981730, send := 19981730, owners := [⟨0, some ⟨4, 203⟩, 0, false⟩],
                       merged := false, retimed := false, immediate := false }] }
      fun t => ((t.port 1).link.reply.map Reply.payload,
        t.timeline.map fun e => (e.send.toNat, e.target.toNat, e.action.vEff, e.owners.length))) =
      some (some [0x21], [(19985730, 20000000, 100, 2)]) := by decide +kernel

/-- R80: a port level of 0 mutes every stroke. -/
theorem test_strike_muted :
    (see (.strike 1 7 127 1) ((withReady 7 .strike base).modReader 1 fun rd => { rd with level := 0 })
      fun t => ((t.port 1).link.reply.map Reply.payload, t.timeline)) = some (some [13], []) := by decide +kernel

/-- R77: a damper movement on a STRIKE channel is WRONG_KIND. -/
theorem test_hold_wrong_kind :
    (see (.holdSet 0 7 0 200) (withReady 7 .strike base) fun t => (t.port 0).link.reply.map Reply.payload) =
      some (some [12]) := by decide +kernel

/-- The launch of channel 64 in section 7.3: launch time 30,000,020 and energised until 30,002,020. -/
theorem test_strike_launches :
    (see .presentation
      { (withReady 64 .strike base).modChan 64 (fun ch => { ch with heat := 3000 }) with
        now := 30000000
        timeline := [{ action := .strike 64 ⟨100, 200, 1425, 5, 9⟩, target := 30014270, fire := 30000020,
                       ideal := 30000000, send := 30000000, owners := [OwnerRef.bare 0], merged := false,
                       retimed := false, immediate := true }] }
      fun t => ((t.chan 64).heat, (t.chan 64).slot.map fun f => f.launch.toNat, t.energised, t.timeline)) =
      some (3200, some 30000020, [⟨64, some 30002020⟩], []) := by decide +kernel

/-- The cut of channel 66 in section 7.3: headroom 100, so pulse 100 and degraded. -/
theorem test_heat_cuts :
    (Channel.heatCheck 300 { Channel.reset with heat := 19900 }) = some (100, true) := by decide +kernel

theorem test_energised_expires :
    (see (.energisedUntilExpiry 64) { base with now := 30002020, energised := [⟨64, some 30002020⟩] }
      fun t => t.energised) = some [] := by decide +kernel

/-- The damper of channel 100 at its fourth cooling step: dropped by force, with HOLD_OFF on D3. -/
theorem test_forced_drop :
    (see .coolingStep
      { base.modChan 100 (fun ch => { ch with
          kind := some .hold, heat := 187, hold := some ⟨255, some 2⟩
          scalars := { ch.scalars with heatLimit := 200 } }) with energised := [⟨100, none⟩] }
      fun t => ((t.chan 100).heat, (t.chan 100).hold, t.energised, (t.chain 3).sending.map Prod.fst)) =
      some (200, none, [], some (.holdOff 0 4 0)) := by decide +kernel

/-- R131: SAFE_ALL is placed on every chain and a PLAYING port goes HELD. -/
theorem test_safe_entry :
    (see .safeEntry (base.modReader 0 fun rd => { rd with state := .playing })
      fun t => ((t.chain 2).sending.map Prod.fst, (t.port 0).reader.state)) =
      some (some .safeAll, .held .safe) := by decide +kernel

theorem test_safe_release : (see .safeRelease { base with safeLow := true } State.safeLow) = some false := by
  decide +kernel

theorem test_sag_sets_its_latch :
    (see .sagBegin base fun t => (t.supplyLow, t.sagLatch)) = some (true, true) := by decide +kernel

/-- R128: acknowledged while the condition holds, the latch is set again. -/
theorem test_supply_ack_in_a_sag :
    (see (.supplyAck 0) { base with supplyLow := true, sagLatch := true } State.sagLatch) = some true := by
  decide +kernel

theorem test_sag_end : (see .sagEnd { base with supplyLow := true } State.supplyLow) = some false := by decide +kernel

/-- The scan of D1 at 50,000,000: PING 0 in transmission and three PINGs queued. -/
theorem test_chain_scan :
    (see (.chainScan 2 1) { base with now := 50000000 }
      fun t => ((t.chain 1).sending.map Prod.fst, (t.chain 1).queue, (t.chain 1).busyUntil.map BitVec.toNat)) =
      some (some (.ping 0), [.ping 1, .ping 2, .ping 3], some 50000080) := by decide +kernel

theorem test_frame_end :
    (see (.frameEnd 0) { base.modChain 0 (fun ch => ch.place 0 20 (.ping 0)) with now := 20 }
      fun t => ((t.chain 0).sending, (t.chain 0).lastSent)) =
      some (none, some (DriveFrame.ping 0).word) := by decide +kernel

/-- R204: kind 6 with bit 31 clear names no report kind, though its check is good. -/
theorem test_unknown_report_kind :
    (see (.reportReceive 0 (0x600000#24 ++ crc8 [0x60, 0, 0])) base fun t => (t.chain 0).checkErrors) = some 1 := by
  decide +kernel

/-- A HELLO of board 2 with hold mask 0F₁₆ is taken by the scan (R147, R203). -/
theorem test_hello_is_collected :
    (see (.reportReceive 1 (0x58000F#24 ++ crc8 [0x58, 0, 0x0F]))
      (base.modChain 1 fun ch => { ch with scan := some (scanOf .request none4) })
      fun t => (t.chain 1).scan.map Scan.found) = some (some #v[none, none, some 0x0F, none]) := by decide +kernel

/-- The slot of "A stroke through a jam": channel 20, v_eff 91, launched at 60,000,020 with tag 1. -/
def jamSlot : FlightSlot :=
  { tag := 1, owners := [⟨0, some ⟨9, 55⟩, 0, false⟩, OwnerRef.bare 1], launch := 60000020,
    fig := figuresOf Channel.reset 91, target := 60015020, lateness := 0, merged := true, retimed := false,
    immediate := true, degraded := false, deadline := 60100020 }

/-- Channel 20 with that slot and two misses, a report waiting on D0 since 50 µs before `now`. -/
def jammed (kind : ReportKind) (now : StageTime) : State :=
  { ((withReady 20 .strike base).modChan 20 fun ch => { ch with slot := some jamSlot, misses := 2 }).modChain 0
      (fun ch => { ch with reports := [⟨kind, 2, 4, now - 50⟩] }) with now := now }

/-- The CONTACT of that example: F_5 becomes 1512, F_6 stays, the misses are cleared. -/
theorem test_contact_adapts :
    (see (.reportTake 0) (jammed (.contact 1 1598) 60016000)
      fun t => ((t.chan 20).slot, (t.chan 20).misses, (t.chan 20).lastFlight, (t.chan 20).knots[5].flight,
        (t.chan 20).knots[6].flight, t.monitor.accLanding[3])) =
      some (none, 0, some 1598, 1512, 1350, 1) := by decide +kernel

/-- Its stale CONTACT of tag 0. -/
theorem test_stale_contact :
    (see (.reportTake 0) (jammed (.contact 0 1400) 60014500)
      fun t => ((t.chain 0).stale, (t.chan 20).slot)) = some (1, some jamSlot) := by decide +kernel

/-- Its JAM: FAULTED, the slot and the miss count kept. -/
theorem test_jam :
    (see (.reportTake 0) (jammed .jam 60015400)
      fun t => ((t.chan 20).presence, (t.chan 20).cause, (t.chan 20).misses, (t.chan 20).slot)) =
      some (.faulted, some .jam, 2, some jamSlot) := by decide +kernel

/-- Its deadline: the third miss reaches the limit. -/
theorem test_deadline :
    (see (.deadline 20) (jammed .jam 60100020)
      fun t => ((t.chan 20).presence, (t.chan 20).cause, (t.chan 20).misses, (t.chan 20).slot)) =
      some (.faulted, some .misses, 3, none) := by decide +kernel

/-- A scan that ends: the board found settles its channel to UNCONFIGURED, and a HOLD it cannot carry loses its kind. -/
theorem test_scan_end :
    (see (.scanEnd 1)
      { (base.modChain 1 fun ch => { ch with scan := some (scanOf .request #v[none, none, some 0x0F, none]) }).modChan 52
          (fun ch => { ch with kind := some .hold }) with now := 2000 }
      fun t => ((t.chan 48).presence, (t.chan 52).presence, (t.chan 52).kind, (t.chan 40).presence)) =
      some (.unconfigured, .unconfigured, none, .absent) := by decide +kernel

theorem test_monitor_window :
    (see .monitorWindowEnd { base with now := 10000000 }
      fun t => (t.monitor.publications, t.monitor.nextExpiry.toNat)) = some (1, 20000000) := by decide +kernel

/-- R173: one record is returned in 20 bytes behind the counts. -/
theorem test_done_read :
    (see (.doneRead 0)
      (base.modUnit 0 fun u => { u with records := [completionOf 5 (OwnerRef.bare 0) (.plain .muted (some 7))] })
      fun t => ((t.port 0).unit.records, (t.port 0).link.reply.map Reply.payload)) =
      some ([], some [1, 0, 0, 0, 13, 0x20, 0, 0, 0, 7, 0, 0, 0, 0xFF, 0xFF, 0, 0, 0, 0, 0, 0, 0, 5, 0]) := by
  decide +kernel

theorem test_filter_set :
    (see (.filterSet 0 1 2) base fun t => ((t.port 0).unit.filter, (t.port 0).unit.mark)) = some (.all, 2) := by
  decide +kernel

theorem test_note_force_needs_an_enable :
    (see (.noteForce 0 0x3FFF) (base.modUnit 0 fun u => { u with enables := 0x0101 })
      fun t => ((t.port 0).unit.latches, (t.port 0).unit.beatWindow, (t.port 0).unit.atn)) =
      some (0x0101, some 5000, true) := by decide +kernel

theorem test_note_mask_clears_latches :
    (see (.noteMask 0 0x0001) (base.modUnit 0 fun u => { u with enables := 0x0101, latches := 0x0101, beatWindow := some 5 })
      fun t => ((t.port 0).unit.latches, (t.port 0).unit.beatWindow)) = some (0x0001, none) := by decide +kernel

theorem test_note_clear :
    (see (.noteClear 0 0x0100) (base.modUnit 0 fun u => { u with enables := 0x0101, latches := 0x0101, beatWindow := some 5 })
      fun t => ((t.port 0).unit.latches, (t.port 0).unit.beatWindow)) = some (0x0001, none) := by decide +kernel

theorem test_note_edge : (see (.noteEdge 0 8) base fun t => (t.port 0).unit.falling) = some 8 := by decide +kernel

theorem test_beat_window_ends :
    (see (.beatWindowEnd 0) { base.modUnit 0 (fun u => { u with latches := 0x100, beatWindow := some 7 }) with now := 7 }
      fun t => ((t.port 0).unit.beatWindow, (t.port 0).unit.latches, (t.port 0).unit.atn)) =
      some (none, 0x100, false) := by decide +kernel

/-- R189: a PORT_RESET keeps its own reply, and forgets the port's references. -/
theorem test_port_reset :
    (see (.portReset 0) { base with timeline := crowd 2 1 0 } fun t => (replyCode 0 t, t.timeline.length)) =
      some (some .ok, 1) := by decide +kernel

/-- Log 1: with nothing due, a step lets one microsecond pass; at 500 µs the beat step comes. -/
theorem test_idle_step :
    (match step base with | .next t => some t.now | _ => none) = some 1 := by decide +kernel

/-! ### Witnesses: states and operands that meet the hypotheses of the statements -/

/-- `base` with stage time `n`. -/
def at_ (n : StageTime) : State := { base with now := n }

theorem test_hyp_IdlePart :
    base.pending = [] ∧ State.reset.pending = [] ∧ State.reset.resetLow = true ∧
      base.resetLow = false ∧ base.dueEvents = [] ∧
      (base.modClock fun c => { c with beatout := some 0 }).dueEvents = [.beatoutPulseEnd] := by decide +kernel

theorem test_hyp_ResetRelease :
    State.reset.resetLow = true ∧ State.reset.safeLow = false ∧
      ({ State.reset with safeLow := true } : State).resetLow = true := by decide +kernel

theorem test_hyp_Transaction :
    base.resetLow = false ∧ (base.port 0).link.csLow = false ∧
      ((base.modLink 0 fun k => { k with isOpen := true }).port 0).link.isOpen = true := by decide +kernel

/-- A port whose link is OPEN and which holds no reply, and one that holds a reply. -/
def opened (r : Option Reply) : State := base.modLink 2 fun k => { k with isOpen := true, csLow := true, reply := r }

theorem test_hyp_BrokenFrames_bad :
    (opened none).resetLow = false ∧ ((opened none).port 2).link.isOpen = true ∧ ([0xFF] : List Byte) ≠ [] ∧
      ¬ ∃ kind payload, (0 : BitVec 3) = 0 ∧ payload.length ≤ 248 ∧ ([0xFF] : List Byte) = frameOf kind payload := by
  refine ⟨rfl, by decide +kernel, by decide, ?_⟩
  rintro ⟨k, l, -, -, h⟩
  simp [frameOf] at h

theorem test_hyp_BrokenFrames_extra_bits :
    ¬ ∃ kind payload, (1 : BitVec 3) = 0 ∧ payload.length ≤ 248 ∧ frameOf 0 [] = frameOf kind payload := by
  rintro ⟨k, l, h, -⟩
  exact absurd h (by decide)

theorem test_hyp_BrokenFrames_unknown :
    (List.replicate 248 (0 : Byte)).length ≤ 248 ∧ frameOf 0x02 (List.replicate 248 0) ≠ [] ∧
      (0x02 : Byte) ∉ requestKinds ∧ (0xFF : Byte) ∉ requestKinds := by decide +kernel

theorem test_hyp_Frames :
    (Instr.nop 2 (List.replicate 248 7)).wellFormed = true ∧
      (requestFrame (Instr.nop 2 (List.replicate 248 7))).isSome = true ∧
      (Instr.cellsWrite 2 0 (List.replicate 246 7)).wellFormed = true ∧
      (requestFrame (Instr.cellsWrite 2 0 (List.replicate 246 7))).isSome = true ∧
      (opened none).resetLow = false ∧ ((opened none).port 2).link.isOpen = true := by decide +kernel

theorem test_hyp_Replies :
    ((opened none).port 2).link.reply = none ∧
      ((opened (some (Reply.bare .ok))).port 2).link.reply = some (Reply.bare .ok) := by decide +kernel

theorem test_hyp_StartUp :
    requestFields (.clkRead 1) = some (1, 0x13, []) ∧ (0x13 : Byte) ≠ 0 ∧
      (base.modChain 3 fun ch => { ch with scan := some (scanOf .startUp none4) }).resetLow = false ∧
      (base.modChain 3 fun ch => { ch with scan := some (scanOf .startUp none4) }).inStartUp = true := by
  decide +kernel

theorem test_taking : base.Taking := ⟨rfl, by decide +kernel⟩

theorem test_taking_safe : ({ base with safeLow := true } : State).Taking := ⟨rfl, by decide +kernel⟩

/-- The boundary values of each clause of RequestsAreRefused. -/
theorem test_hyp_RequestsAreRefused :
    base.Taking ∧ 1 < (2 : Byte).toNat ∧ base.clock.meter ≤ (4 : Byte).toNat ∧ 2 < (3 : Byte).toNat ∧
      127 < (128 : Byte).toNat ∧ 1 < (2 : Byte).toNat ∧ 3 < (4 : Byte).toNat ∧ 64 < (65 : Byte).toNat :=
  ⟨test_taking, by decide +kernel⟩

/-- The boundary values of the refusing clauses of RunAndStop, Ramp, MeterAndCue, Cells, NoteRequests and ChainScan. -/
theorem test_hyp_refused_ranges :
    1 < (2 : Byte).toNat ∧ 240000 < (240001 : BitVec 32).toNat ∧ 16 < (17 : Byte).toNat ∧ 8 ≤ (8 : Byte).toNat ∧
      ((0 : Byte).getLsbD 2 = false ∧ 15 < (16 : Byte).toNat) ∧ 16383 < (16384 : BitVec 16).toNat ∧
      15 < (16 : Byte).toNat ∧ (List.replicate 7 (0 : Byte)).length % 8 ≠ 0 ∧
      240 < (List.replicate 248 (0 : Byte)).length ∧
      2048 < (2048 : BitVec 16).toNat + (List.replicate 8 (0 : Byte)).length / 8 ∧ 31 < (32 : Byte).toNat ∧
      2048 < (2048 : BitVec 16).toNat + (1 : Byte).toNat ∧ 3 < (4 : Byte).toNat := by decide +kernel

theorem test_hyp_RequestsAreRefused_safe :
    ({ base with safeLow := true } : State).safeLow = true ∧ (3 : Byte).toNat ≤ 3 ∧ (127 : Byte).toNat ≤ 127 ∧
      1 ≤ (1 : Byte).toNat ∧ (1 : Byte).toNat ≤ 1 ∧ ¬((1 : Byte) = 0 ∧ (0 : Byte) = 0) ∧ ¬((0 : Byte) = 0 ∧ (1 : Byte) = 0) ∧
      (2047 : BitVec 16).toNat ≤ 2047 ∧ (4 : Byte).toNat ≤ 4 ∧
      ((600000000 : BitVec 32) - ({ base with safeLow := true } : State).now).toNat ≤ 600000000 ∧
      (600000 : BitVec 32).toNat ≤ 600000 := by decide +kernel

theorem test_hyp_PlaceRequests :
    base.Taking ∧ (3 : Byte).toNat < base.clock.meter ∧ base.clockShared = false ∧ base.clock.cues = [] :=
  ⟨test_taking, by decide +kernel, by decide +kernel, rfl⟩

/-- A state with a pending sync action. -/
def waiting (a : SyncAction) : State := base.modClock fun c => { c with sync := some ⟨a, 1⟩ }

theorem test_hyp_SyncEdge :
    base.resetLow = false ∧ base.clock.sync = none ∧ (waiting .run).clock.sync = some ⟨.run, 1⟩ ∧
      (waiting .stop).clock.sync = some ⟨.stop, 1⟩ ∧
      (waiting (.place 9 8 4)).clock.sync = some ⟨.place 9 8 4, 1⟩ ∧ (waiting (.place 9 8 4)).clock.meter ≤ 4 ∧
      (waiting (.place 9 8 3)).clock.sync = some ⟨.place 9 8 3, 1⟩ ∧ 3 < (waiting (.place 9 8 3)).clock.meter ∧
      (waiting (.place 9 8 3)).clockShared = false := by decide +kernel

theorem test_hyp_RampRequests :
    (1 : BitVec 16) ≠ 0 ∧ (65535 : BitVec 16) ≠ 0 ∧ 1 ≤ (1 : BitVec 32).toNat ∧ (240000 : BitVec 32).toNat ≤ 240000 := by
  decide

theorem test_hyp_MeterAndCue :
    1 ≤ (1 : Byte).toNat ∧ (16 : Byte).toNat ≤ 16 ∧ (7 : Byte).toNat < 8 ∧ (4 : Byte).getLsbD 2 = true ∧
      (15 : Byte).toNat ≤ 15 := by decide

/-- A clock about to take a step. -/
def stepping (running : Bool) (pos : BitVec 64) (beat : Nat) : State :=
  { base.modClock (fun c => { c with running := running, pos := pos, beat := beat, nextBeat := 7 }) with now := 7 }

theorem test_hyp_BeatSteps :
    (stepping false 0 0).resetLow = false ∧ (stepping false 0 0).clock.nextBeat = (stepping false 0 0).now ∧
      (stepping false 0 0).clock.running = false ∧ (stepping true 0 0).clock.running = true ∧
      (stepping true 0 0).clock.ramp = .none ∧ (stepping true 0 0).clock.cues = [] ∧
      crosses ((stepping true 0 0).clock.pos.extractLsb' 32 32)
        (((stepping true 0 0).clock.pos + (stepping true 0 0).clock.rate.setWidth 64).extractLsb' 32 32) = false := by
  decide +kernel

/-- Both kinds of crossing: within a bar, and the bar line of a meter of 4. -/
theorem test_hyp_BeatCrossings :
    ∀ beat ∈ [0, 3],
      (stepping true (384 * 4294967296 - 1) beat).resetLow = false ∧
      (stepping true (384 * 4294967296 - 1) beat).clock.running = true ∧
      (stepping true (384 * 4294967296 - 1) beat).clock.cues = [] ∧
      (stepping true (384 * 4294967296 - 1) beat).clock.pos.extractLsb' 32 32 ≠
        ((stepping true (384 * 4294967296 - 1) beat).clock.pos +
          (stepping true (384 * 4294967296 - 1) beat).clock.rate.setWidth 64).extractLsb' 32 32 ∧
      (((stepping true (384 * 4294967296 - 1) beat).clock.pos +
        (stepping true (384 * 4294967296 - 1) beat).clock.rate.setWidth 64).extractLsb' 32 32).toNat % 384 = 0 := by
  decide +kernel

/-- The ports of BeatCrossings: CUE enabled and matching, BEAT enabled in both modes. -/
theorem test_hyp_BeatCrossings_ports :
    ({ NoticeUnit.reset with enables := 0x180 } : NoticeUnit).enabled .cue = true ∧
      ({ NoticeUnit.reset with enables := 0x180 } : NoticeUnit).enabled .beat = true ∧
      ({ CueMatch.reset with enabled := true } : CueMatch).fits 0 1 = true ∧
      ({ CueMatch.reset with enabled := true } : CueMatch).fits 1 0 = true := by decide +kernel

/-- A running clock whose ramp is at its last step. -/
def ramping (r : Ramp) (w : BitVec 32) : State := base.modClock fun c => { c with running := true, ramp := r, rate := w }

theorem test_hyp_RampsEnd :
    (ramping (.glide 4123168604 1 1) 4123168603).clock.ramp = .glide 4123168604 1 1 ∧
      137438954 ≤ (((ramping (.glide 4123168604 1 1) 4123168603).clock.rate.toNat : Int) + 1) ∧
      (((ramping (.glide 4123168604 1 1) 4123168603).clock.rate.toNat : Int) + 1) ≤ 4123168604 ∧
      (ramping (.curve (-1) 5 1) 137438955).clock.ramp = .curve (-1) 5 1 ∧
      137438954 ≤ (((ramping (.curve (-1) 5 1) 137438955).clock.rate.toNat : Int) + -1) ∧
      (((ramping (.curve (-1) 5 1) 137438955).clock.rate.toNat : Int) + -1) ≤ 4123168604 := by decide +kernel

theorem test_hyp_ReachedEndTimes :
    (base.modClock fun c => { c with beatout := some 0 }).clock.beatout = some base.now ∧
      ((base.modUnit 1 fun u => { u with beatWindow := some 0 }).port 1).unit.beatWindow = some base.now ∧
      strikeTill ({ base with energised := [⟨127, some 0⟩] } : State).energised 127 = some base.now ∧
      (at_ 10000000).monitor.nextExpiry = (at_ 10000000).now := by decide +kernel

/-- The field ranges of an accepted CHAN_SETUP at their ends, for both kinds. -/
theorem test_hyp_ChanSetup :
    ∀ k ∈ [Kind.strike, Kind.hold],
      let f : SetupFields := ⟨k.byte, 5, 2000, 500, 65535, 255, 4, 15⟩
      f.kind = k.byte ∧ 5 ≤ f.pulseMin.toNat ∧ f.pulseMin.toNat ≤ f.pulseMax.toNat ∧ f.pulseMax.toNat ≤ 2000 ∧
        5 ≤ f.recovery.toNat ∧ f.recovery.toNat ≤ 500 ∧ 100 ≤ f.heatLimit.toNat ∧ 1 ≤ f.coolingRate.toNat ∧
        f.adaptShift.toNat ≤ 4 ∧ 1 ≤ f.missLimit.toNat ∧ f.missLimit.toNat ≤ 15 ∧
        (∀ e ∈ base.timeline, e.action.chan ≠ some 127) ∧ (base.chan 127).slot = none ∧ (base.chan 127).hold = none ∧
        base.boardEntry 127 = none := by decide +kernel

/-- A channel that is FAULTED. -/
def faulted (c : ChanId) : State := base.modChan c fun ch => { ch with presence := .faulted, cause := some .jam }

theorem test_hyp_CurveAndRelease :
    base.channelBusy 127 = false ∧ (base.chan 127).presence ≠ .faulted ∧ ((faulted 127).chan 127).presence = .faulted := by
  decide +kernel

theorem test_hyp_Cells :
    (List.replicate 240 (1 : Byte)).length = 8 * 30 ∧ (2018 : BitVec 16).toNat + 30 ≤ 2048 ∧
      Memory.wf (base.port 0).mem = true ∧ 1 ≤ (31 : Byte).toNat ∧ (31 : Byte).toNat ≤ 31 ∧
      (2017 : BitVec 16).toNat + (31 : Byte).toNat ≤ 2048 := by decide +kernel

/-- A port whose region holds a free phrase at address 10. -/
def composed : State := base.modPort 1 fun r => { r with mem := region }

theorem test_hyp_Posts :
    composed.resetLow = false ∧ composed.inStartUp = false ∧ composed.safeLow = false ∧ (10 : BitVec 16).toNat ≤ 2047 ∧
      originOf composed.now 3 600000 = some (.nowPlus 600000) ∧
      decodeCell (readCell (composed.port 1).mem 10) = .head ⟨.free, false, false, 0, 400000⟩ ∧
      (composed.port 1).reader.queue.length < 4 ∧ (composed.port 1).reader.opened.length ≤ 8 ∧
      (composed.port 1).reader.originFits (.nowPlus 600000) .free = true := by decide +kernel

/-- An open record of the phrase in `region`, at cell address `a`. -/
def reading (a outstanding : Nat) : OpenRec :=
  { serial := 0, clock := .free, origin := 150000, length := 400000, overhang := false, stopOnFault := false,
    start := 10, passesLeft := 0, pass := 0, addr := a, links := 0, reading := .reading, outstanding := outstanding,
    exceptions := 0 }

/-- `composed` with that phrase current and the port in a state. -/
def playing (st : PortState) (a : Nat) : State :=
  composed.modReader 1 fun rd => { rd with state := st, opened := [reading a 0] }

theorem test_hyp_Stops :
    (playing .playing 11).resetLow = false ∧ (playing .playing 11).inStartUp = false ∧
      ((playing .playing 11).port 1).reader.readingCount ≤ 1 := by decide +kernel

theorem test_hyp_Go :
    (playing (.held .safe) 11).resetLow = false ∧ (playing (.held .safe) 11).inStartUp = false ∧
      (playing (.held .safe) 11).safeLow = false ∧ ((playing (.held .safe) 11).port 1).reader.readingCount ≤ 1 ∧
      ((playing (.held .safe) 11).port 1).reader.state = .held .safe ∧
      ((playing (.held .faultStop) 11).port 1).reader.state = .held .faultStop ∧
      ((playing (.held (.program .badKind)) 11).port 1).reader.state = .held (.program .badKind) ∧
      ((playing (.held (.program .badKind)) 11).port 1).reader.current = some (reading 11 0) ∧
      ((playing .playing 11).port 1).reader.isHeld = false := by decide +kernel

theorem test_hyp_Immediate_strike :
    let s := withReady 127 .strike base
    s.resetLow = false ∧ s.inStartUp = false ∧ s.safeLow = false ∧ 1 ≤ (127 : Byte).toNat ∧ (127 : Byte).toNat ≤ 127 ∧
      (1 : Byte).toNat ≤ 1 ∧ effectiveVelocity 127 (s.port 2).reader.level true s.settings.accentBoost = some 127 ∧
      s.channelCheck 127 .strike = none ∧ s.timeline = [] ∧ admits s.timeline 2 = true := by decide +kernel

theorem test_hyp_Immediate_hold :
    let s := withReady 127 .hold base
    s.resetLow = false ∧ s.inStartUp = false ∧ s.safeLow = false ∧ ((0 : Byte) = 0 ∧ (255 : Byte) ≠ 0) ∧
      s.channelCheck 127 .hold = none ∧ admits s.timeline 2 = true := by decide +kernel

/-- The STROKE of `region` comes within the horizon: target 150,000 at stage time 50,000. -/
def arriving : State := { withReady 64 .strike (playing .playing 11) with now := 50000 }

theorem test_hyp_StrokeCells :
    (arriving.port 1).reader.current = some (reading 11 0) ∧ (reading 11 0).addr < 2048 ∧ (reading 11 0).clock = .free ∧
      decodeCell (readCell (arriving.port 1).mem (reading 11 0).addr) = .stroke 64 100 false false 0 ∧
      0 < (reading 11 0).length ∧
      (150000 : StageTime) = plus (plus (reading 11 0).origin ((reading 11 0).pass * (reading 11 0).length)) 0 ∧
      later 150000 (plus arriving.now (arriving.settings.horizon * 1000)) = false ∧
      effectiveVelocity 100 (arriving.port 1).reader.level false arriving.settings.accentBoost = some 100 ∧
      arriving.channelCheck 64 .strike = none ∧
      later (minus (minus 150000 ((figuresOf (arriving.chan 64) 100).flight * 10)) arriving.settings.frameTime)
        arriving.now = true ∧
      arriving.timeline = [] ∧ admits arriving.timeline 1 = true ∧ (arriving.port 1).reader.isHeld = false := by
  decide +kernel

/-- The entry of a stroke of v_eff `v` on channel 7 aimed at 14,270 µs, with `n` owners. -/
def partnerOf (v n : Nat) : Entry :=
  { action := .strike 7 (figuresOf Channel.reset v), target := 14270, fire := 20, ideal := 0, send := 0,
    owners := List.replicate n (OwnerRef.bare 0), merged := false, retimed := false, immediate := true }

/-- A READY channel 7 with that entry waiting. -/
def joining (v n : Nat) : State := { withReady 7 .strike base with timeline := [partnerOf v n] }

/-- The three clauses of StrikeMerges: a harder or equal partner, a softer one, and a full one. -/
theorem test_hyp_StrikeMerges :
    ∀ x ∈ [(100, 3), (99, 3), (100, 4)],
      let s := joining x.1 x.2
      s.resetLow = false ∧ s.inStartUp = false ∧ s.safeLow = false ∧
        effectiveVelocity (100 : Byte).toNat (s.port 1).reader.level false s.settings.accentBoost = some 100 ∧
        s.channelCheck 7 .strike = none ∧ s.timeline = [] ++ partnerOf x.1 x.2 :: [] ∧
        (partnerOf x.1 x.2).action = .strike 7 (figuresOf Channel.reset x.1) ∧
        distance (partnerOf x.1 x.2).target
          (plus s.now (s.settings.frameTime + (figuresOf (s.chan 7) 100).flight * 10)) ≤ s.settings.mergeWindow ∧
        ((partnerOf x.1 x.2).owners.length < 4 ∧ 100 ≤ (figuresOf Channel.reset x.1).vEff ∨
          (partnerOf x.1 x.2).owners.length < 4 ∧ (figuresOf Channel.reset x.1).vEff < 100 ∨
          4 ≤ (partnerOf x.1 x.2).owners.length) := by decide +kernel

/-- A pass due now: while SAFE is asserted, while HELD, and at the END of a phrase. -/
theorem test_hyp_ReaderPasses :
    let s := { playing .playing 12 with now := 500 }
    s.resetLow = false ∧ (s.port 1).nextPass = s.now ∧ s.safeLow = false ∧ (s.port 1).reader.isHeld = false ∧
      (s.port 1).reader.queue = [] ∧ (s.port 1).reader.opened = [reading 12 0] ∧ (reading 12 0).addr < 2048 ∧
      (readByte (s.port 1).mem (8 * (reading 12 0).addr)).toNat % 16 = 0 ∧
      ((playing (.held .safe) 12).port 1).reader.isHeld = true := by decide +kernel

theorem test_hyp_SysSetup :
    let f : SettingsFields := ⟨250, 20000, 20000, 200, 16, 32, 2000, 256, 4, 32, 255⟩
    base.resetLow = false ∧ base.inStartUp = false ∧ settingsInRanges f = true ∧ base.timeline = [] ∧
      (∀ c, (base.chan c).slot = none) ∧ (∀ d, (base.chain d).queue = [] ∧ (base.chain d).sending = none) ∧
      base.energised.length ≤ f.supplyLimit.toNat := by decide +kernel

theorem test_hyp_SafeEntry :
    base.resetLow = false ∧ base.safeLow = false ∧ (base.chain 0).sending = none ∧
      ((base.modChain 0 fun ch => ch.place 0 20 (.ping 0)).chain 0).sending = some (.ping 0, 0) := by decide +kernel

theorem test_hyp_Cooling_cools :
    (at_ 10000).resetLow = false ∧ (at_ 10000).nextCooling = (at_ 10000).now ∧
      (∀ c, ((at_ 10000).chan c).hold = none) := by decide +kernel

/-- The damper of channel 100, one cooling step from its limit. -/
def hot : State :=
  base.modChan 100 fun ch => { ch with heat := 187, hold := some ⟨255, some 2⟩
                                       scalars := { ch.scalars with heatLimit := 200 } }

theorem test_hyp_Cooling_drops :
    hot.resetLow = false ∧ (hot.chan 100).hold = some ⟨255, some 2⟩ ∧ (∀ e, e ≠ 100 → (hot.chan e).hold = none) ∧
      (hot.chan 100).scalars.heatLimit ≤
        ((hot.chan 100).heat - max 1 ((hot.chan 100).heat * (hot.chan 100).scalars.coolingRate / 256)) + (255 + 3) / 4 ∧
      (hot.chan 100).heat ≠ 0 ∧ (hot.chain (chainOf 100)).queue.length < 16 := by decide +kernel

theorem test_hyp_ChainScan :
    base.safeLow = false ∧ (base.chain 3).scan = none ∧ (∀ c, chainOf c = 3 → base.channelBusy c = false) ∧
      (base.chain 3).queue = [] ∧ (base.chain 3).sending = none := by decide +kernel

theorem test_hyp_FramesFollow :
    let ch := (Chain.reset.place 0 20 (.ping 0)).place 0 20 (.ping 1)
    ch.sending = some (.ping 0, 0) ∧ (20 : StageTime) = plus 0 Settings.reset.frameTime ∧ ch.queue = [.ping 1] ∧
      (Chain.reset.place 0 20 (.ping 0)).queue = [] := by decide +kernel

theorem test_hyp_DriveFrames : 16383 < 16384 := by decide

/-- A full report queue. -/
def crowdedChain : State :=
  base.modChain 2 fun ch => { ch with reports := List.replicate 16 ⟨.jam, 0, 0, 0⟩ }

theorem test_hyp_Reports :
    crc8 [0x00, 0x00, 0x00] ≠ (0x01 : Byte) ∧
      (0x60000000 : BitVec 32).msb = false ∧ (0x60000000 : BitVec 32).extractLsb' 28 3 ∈ [(0 : BitVec 3), 6, 7] ∧
      decodeReport (0x58000F#24 ++ crc8 [0x58, 0, 0x0F]) = some (.hello 2 0x0F) ∧ (base.chain 2).scan = none ∧
      decodeReport (0x400000#24 ++ crc8 [0x40, 0, 0]) = some (.report .jam 0 0) ∧
      (base.chain 2).reports.length < 16 ∧ 16 ≤ (crowdedChain.chain 2).reports.length := by decide +kernel

/-- A scan at its end. -/
def scanned : State :=
  { base.modChain 3 (fun ch => { ch with scan := some (scanOf .startUp #v[some 0, none, none, some 255]) }) with now := 2000 }

theorem test_hyp_Scans :
    scanned.resetLow = false ∧ (scanned.chain 3).scan = some (scanOf .startUp #v[some 0, none, none, some 255]) ∧
      scanned.now = plus 0 2000 ∧ chainOf 127 = 3 ∧ (scanned.chan 127).presence ≠ .faulted := by decide +kernel

/-- A head entry of an action, due now. -/
def due (a : Action) : Entry :=
  { action := a, target := 20, fire := 20, ideal := 0, send := 0, owners := [OwnerRef.bare 1], merged := false,
    retimed := false, immediate := true }

/-- The head is a stroke of pulse `pulse` on channel 3 with heat `heat`. -/
def launching (pulse heat : Nat) : State :=
  { withReady 3 .strike (base.modChan 3 fun ch => { ch with heat := heat }) with
    timeline := [due (.strike 3 ⟨100, pulse, 1425, 5, 9⟩)] }

theorem test_hyp_StrokesLaunch :
    let s := launching 285 19715
    s.resetLow = false ∧ s.timeline = due (.strike 3 ⟨100, 285, 1425, 5, 9⟩) :: [] ∧
      (due (.strike 3 ⟨100, 285, 1425, 5, 9⟩)).send = s.now ∧ s.channelCheck 3 .strike = none ∧
      (s.chan 3).slot = none ∧ (s.chan 3).readyAfter = none ∧ s.supplyLow = false ∧
      s.energised.length < s.settings.supplyLimit ∧ (∀ m ∈ s.energised, m.chan ≠ 3) ∧
      285 ≤ (s.chan 3).scalars.heatLimit - (s.chan 3).heat ∧ (s.chain (chainOf 3)).queue.length < 16 := by
  decide +kernel

/-- The two heat clauses of Checks: headroom pulse min, and one below it. -/
theorem test_hyp_Checks_heat :
    ∀ heat ∈ [19980, 19981],
      let s := launching 285 heat
      s.resetLow = false ∧ s.timeline = [due (.strike 3 ⟨100, 285, 1425, 5, 9⟩)] ∧
        (due (.strike 3 ⟨100, 285, 1425, 5, 9⟩)).send = s.now ∧ s.channelCheck 3 .strike = none ∧ (s.chan 3).slot = none ∧
        (s.chan 3).readyAfter = none ∧ s.supplyLow = false ∧
        s.energised.length < s.settings.supplyLimit ∧ (s.chain (chainOf 3)).queue.length < 16 ∧
        (s.chan 3).scalars.heatLimit - (s.chan 3).heat < 285 ∧ (s.chan 3).heat ≤ (s.chan 3).scalars.heatLimit ∧
        ((s.chan 3).scalars.pulseMin ≤ (s.chan 3).scalars.heatLimit - (s.chan 3).heat ↔ heat = 19980) := by
  decide +kernel

/-- The two recovery clauses of Checks: ready-after at the end of the tolerance, and past it. -/
theorem test_hyp_Checks_recovery :
    ∀ ready ∈ [5000, 5001],
      let s := (launching 285 0).modChan 3 fun ch => { ch with readyAfter := some (BitVec.ofNat 32 ready) }
      s.resetLow = false ∧ s.timeline = [due (.strike 3 ⟨100, 285, 1425, 5, 9⟩)] ∧
        (due (.strike 3 ⟨100, 285, 1425, 5, 9⟩)).send = s.now ∧ s.channelCheck 3 .strike = none ∧ (s.chan 3).slot = none ∧
        (s.chan 3).readyAfter = some (BitVec.ofNat 32 ready) ∧ later (BitVec.ofNat 32 ready) s.now = true ∧
        ((BitVec.ofNat 32 ready - (due .mark).ideal).toNat ≤ s.settings.tolerance ↔ ready = 5000) := by decide +kernel

/-- A head entry of an action on a READY hold channel. -/
def holding (a : Action) : State := { withReady 127 .hold base with timeline := [due a] }

theorem test_hyp_HoldsAndMarks :
    let s := holding (.lift 127 255)
    s.resetLow = false ∧ s.timeline = due (.lift 127 255) :: [] ∧ (due (.lift 127 255)).send = s.now ∧
      s.channelCheck 127 .hold = none ∧ s.supplyLow = false ∧ (s.chan 127).hold = none ∧
      s.energised.length < s.settings.supplyLimit ∧ (∀ m ∈ s.energised, m.chan ≠ 127) ∧
      (s.chain (chainOf 127)).queue.length < 16 ∧ (holding (.drop 127)).channelCheck 127 .hold = none ∧
      (holding .mark).timeline = [due .mark] := by decide +kernel

/-- A LIFT on a channel that is LIFTED, with no room left in the energised set, and a DROP on a DOWN strike member. -/
theorem test_hyp_HoldsAndMarks_members :
    let s : State := { (holding (.lift 127 1)).modChan 127 (fun ch => { ch with hold := some ⟨255, some 2⟩ }) with
      energised := [⟨0, none⟩, ⟨1, none⟩, ⟨2, none⟩, ⟨127, none⟩] }
    let d : State := { holding (.drop 127) with energised := [⟨127, some 9⟩] }
    s.timeline = [due (.lift 127 1)] ∧ s.channelCheck 127 .hold = none ∧ s.supplyLow = false ∧
      (s.chan 127).hold ≠ none ∧ (s.chain (chainOf 127)).queue.length < 16 ∧ d.channelCheck 127 .hold = none ∧
      (d.chan 127).hold = none ∧ strikeTill d.energised 127 = some 9 := by decide +kernel

/-- R37: the lift of a LIFTED channel sets its level and its lifting port anew. -/
theorem test_lift_again :
    (see .presentation ((holding (.lift 127 1)).modChan 127 fun ch => { ch with hold := some ⟨255, some 2⟩ })
      fun t => ((t.chan 127).hold, t.energised)) = some (some ⟨1, some 1⟩, []) := by decide +kernel

theorem test_hyp_Contacts :
    let s := jammed (.contact 1 65535) 50
    s.resetLow = false ∧ (s.chain 0).reports = [⟨.contact 1 65535, 2, 4, 0⟩] ∧ (s.chain 0).lastTake = none ∧
      s.now = plus 0 50 ∧ chanAt 0 2 4 = 20 ∧ (s.chan 20).kind ≠ some .hold ∧ (s.chan 20).slot = some jamSlot ∧
      jamSlot.tag = 1 ∧ jamSlot.tag ≠ 0 := by decide +kernel

/-- Both clauses of ContactsTeach: an error at the outlier limit, and one past it. -/
theorem test_hyp_ContactsTeach :
    jamSlot.degraded = false ∧ jamSlot.fig.seg ≤ 6 ∧ jamSlot.fig.off ≤ 18 ∧
      (((2000 : Nat) : Int) - jamSlot.fig.flight).natAbs ≤ 500 ∧ 500 < (((2001 : Nat) : Int) - jamSlot.fig.flight).natAbs ∧
      Channel.reset.scalars.adaptShift ≠ 0 := by decide +kernel

/-- The four clauses of FaultReports: a HOLD channel, a STRIKE channel with its slot, a jam, and a FAULTED channel. -/
theorem test_hyp_FaultReports :
    let s := jammed (.coilShort 1) 50
    let h : State := { (jammed (.coilOpen 3) 50).modChan 20 (fun ch => { ch with kind := some .hold, slot := none }) with
      energised := [⟨20, none⟩] }
    s.resetLow = false ∧ h.resetLow = false ∧ chanAt 0 2 4 = 20 ∧ h.now = plus 0 50 ∧ (h.chain 0).lastTake = none ∧
      (s.chan 20).kind ≠ some .hold ∧ (s.chan 20).slot = some jamSlot ∧ jamSlot.tag = 1 ∧ (s.chan 20).presence ≠ .faulted ∧
      (s.chain 0).reports = [⟨.coilShort 1, 2, 4, 0⟩] ∧ (s.chain 0).lastTake = none ∧ s.now = plus 0 50 ∧
      (h.chain 0).reports = [⟨.coilOpen 3, 2, 4, 0⟩] ∧ (h.chan 20).kind = some .hold ∧ (h.chan 20).presence ≠ .faulted ∧
      ((jammed .jam 50).chain 0).reports = [⟨.jam, 2, 4, 0⟩] ∧
      (((jammed .jam 50).modChan 20 fun ch => { ch with presence := .faulted }).chan 20).presence = .faulted := by
  decide +kernel

theorem test_hyp_Deadlines :
    let s := jammed .jam 60100020
    s.resetLow = false ∧ (s.chan 20).slot = some jamSlot ∧ jamSlot.deadline = s.now ∧
      (s.chan 20).presence ≠ .faulted ∧ (s.chan 20).scalars.missLimit ≤ (s.chan 20).misses + 1 := by decide +kernel

theorem test_hyp_DoneAndNotes :
    (1 : Byte).toNat ≤ 1 ∧ 1 ≤ (64 : Byte).toNat ∧ (64 : Byte).toNat ≤ 64 ∧ (16383 : BitVec 16).toNat ≤ 16383 ∧
      (15 : Byte).toNat ≤ 15 := by decide

/-- The states of CurveAndRelease, SysSetup and ChainScan that are refused with BUSY: an occupied slot, a channel that
is scanned, a frame under way, and an energised count above the new limit. -/
theorem test_hyp_refused_busy :
    (jammed .jam 50).Taking ∧ (jammed .jam 50).channelBusy 20 = true ∧ chainOf 20 = 0 ∧ ((jammed .jam 50).chan 20).slot ≠ none ∧
      (let s := base.modChain 0 fun ch => (ch.place 0 20 (.ping 0)).place 0 20 (.ping 1)
       s.Taking ∧ (s.chain 0).queue ≠ [] ∧ (s.chain 0).sending ≠ none) ∧
      (let s := base.modChain 0 fun ch => { ch with scan := some (scanOf .request none4) }
       s.Taking ∧ (s.chain 0).scan ≠ none) ∧
      (joining 100 1).timeline ≠ [] ∧ settingsInRanges ⟨20, 0, 0, 20, 1, 0, 0, 16, 1, 2, 1⟩ = true ∧
      settingsInRanges ⟨19, 0, 0, 20, 1, 0, 0, 16, 1, 2, 1⟩ = false ∧
      (1 : Byte).toNat < ({ base with energised := [⟨0, none⟩, ⟨1, none⟩] } : State).energised.length := by
  unfold State.Taking
  decide +kernel

/-- The posts of PostsQueue that are refused: at a cell that is no HEAD, with a full queue, and after nothing. -/
theorem test_hyp_refused_posts :
    (∀ h, decodeCell (readCell (base.port 1).mem (10 : BitVec 16).toNat) ≠ .head h) ∧
      originOf composed.now 4 0 = some .after ∧ (composed.port 1).reader.originFits .after .free = false ∧
      (let s := composed.modReader 1 fun rd =>
        { rd with queue := List.replicate 4 ⟨0, 10, .nowPlus 0, ⟨.free, false, false, 0, 400000⟩, false⟩ }
       s.Taking ∧ s.safeLow = false ∧ 4 ≤ (s.port 1).reader.queue.length) := by
  refine ⟨fun h => ?_, by unfold State.Taking; decide +kernel⟩
  have : decodeCell (readCell (base.port 1).mem (10 : BitVec 16).toNat) = .endCell := by decide +kernel
  rw [this]
  exact fun h => by cases h

/-- The clauses of ImmediateRequests that arm nothing: a muted stroke, a channel that is not READY, and no room. -/
theorem test_hyp_Immediate_refused :
    effectiveVelocity (1 : Byte).toNat 63 false 12 = none ∧ base.channelCheck 127 .strike = some .absent ∧
      base.channelCheck 127 .hold = some .absent ∧ effectiveVelocity (1 : Byte).toNat 128 false 12 = some 1 ∧
      admits (crowd 192 32 32) 0 = false ∧ admits (crowd 192 32 32) 2 = false := by decide +kernel

/-! ### Witnesses of the clauses on one cell, one outcome and one edge -/

/-- A frame whose kind is a request's and whose payload is a byte short. -/
theorem test_hyp_BrokenFrames_length :
    (opened none).inStartUp = false ∧ (0x14 : Byte) ∈ requestKinds ∧ ([1] : List Byte).length ≤ 248 ∧
      ∀ i q other, requestFields i = some (q, 0x14, other) → other.length ≠ ([1] : List Byte).length := by
  refine ⟨by decide +kernel, by decide +kernel, by decide, ?_⟩
  intro i q other h
  cases i <;> simp [requestFields] at h
  simp [← h.2, bytes16, bytesOf]

/-- CLK_PLACE while a beat phrase is queued, and while one is current. -/
theorem test_hyp_RequestsAreRefused_shared :
    let queue := base.modReader 1 fun rd => { rd with queue := [⟨0, 0, .nextBar, ⟨.beat, false, false, 0, 0⟩, false⟩] }
    let current := base.modReader 1 fun rd => { rd with opened := [{ reading 11 0 with clock := .beat }] }
    queue.Taking ∧ current.Taking ∧ (∀ mode ∈ [(0 : Byte), 1], mode.toNat ≤ 1) ∧ (3 : Byte).toNat < base.clock.meter ∧
      ((queue.port 1).reader.queue.map fun x => x.head.clock) = [.beat] ∧
      ((current.port 1).reader.current.map OpenRec.clock) = some .beat := by
  unfold State.Taking
  decide +kernel

/-- A CHAN_SETUP with every field at an end of its range. -/
def setup : SetupFields := ⟨2, 5, 2000, 5, 100, 1, 4, 15⟩

/-- Each field of CHAN_SETUP one step outside its range. -/
theorem test_hyp_RequestsAreRefused_setup :
    ∀ f ∈ [{ setup with kind := 0 }, { setup with kind := 3 }, { setup with pulseMin := 4 },
        { setup with pulseMin := 2000, pulseMax := 1999 }, { setup with pulseMax := 2001 }, { setup with recovery := 4 },
        { setup with recovery := 501 }, { setup with heatLimit := 99 }, { setup with coolingRate := 0 },
        { setup with adaptShift := 5 }, { setup with missLimit := 0 }, { setup with missLimit := 16 }],
      f.kind ≠ 1 ∧ f.kind ≠ 2 ∨ f.pulseMin.toNat < 5 ∨ f.pulseMax.toNat < f.pulseMin.toNat ∨ 2000 < f.pulseMax.toNat ∨
        f.recovery.toNat < 5 ∨ 500 < f.recovery.toNat ∨ f.heatLimit.toNat < 100 ∨ f.coolingRate = 0 ∨
        4 < f.adaptShift.toNat ∨ f.missLimit = 0 ∨ 15 < f.missLimit.toNat := by decide +kernel

/-- An acceptable CHAN_SETUP for a busy channel in each of its three ways, and for a HOLD that its board cannot carry. -/
theorem test_hyp_RequestsAreRefused_setup_busy :
    let board := base.modChain 3 fun ch => { ch with boards := #v[none, none, none, some 0x7F] }
    (setup.kind = 1 ∨ setup.kind = 2) ∧ 5 ≤ setup.pulseMin.toNat ∧ setup.pulseMin.toNat ≤ setup.pulseMax.toNat ∧
      setup.pulseMax.toNat ≤ 2000 ∧ 5 ≤ setup.recovery.toNat ∧ setup.recovery.toNat ≤ 500 ∧
      100 ≤ setup.heatLimit.toNat ∧ 1 ≤ setup.coolingRate.toNat ∧ setup.adaptShift.toNat ≤ 4 ∧
      1 ≤ setup.missLimit.toNat ∧ setup.missLimit.toNat ≤ 15 ∧
      ((joining 100 1).timeline.map fun e => e.action.chan) = [some 7] ∧ ((jammed .jam 50).chan 20).slot ≠ none ∧
      (hot.chan 100).hold ≠ none ∧ board.Taking ∧ board.timeline = [] ∧ (board.chan 127).slot = none ∧
      (board.chan 127).hold = none ∧ board.boardEntry 127 = some 0x7F ∧ (0x7F : Byte).getLsbD (127 % 8) = false := by
  unfold State.Taking
  decide +kernel

theorem test_hyp_RequestsAreRefused_posts :
    2047 < (2048 : BitVec 16).toNat ∧ 4 < (5 : Byte).toNat ∧ 600000000 < ((600000001 : BitVec 32) - base.now).toNat ∧
      600000 < (600001 : BitVec 32).toNat := by decide +kernel

/-- A step with a cue that is due and one that is not. -/
theorem test_hyp_BeatSteps_cues :
    let s := { stepping true 0 0 with clock := { (stepping true 0 0).clock with
      cues := [⟨0, 6000, 0, OwnerRef.bare 0⟩, ⟨1, 6000, 0, OwnerRef.bare 1⟩] } }
    let tick : Tick := (s.clock.pos + s.clock.rate.setWidth 64).extractLsb' 32 32
    s.resetLow = false ∧ s.clock.nextBeat = s.now ∧ s.clock.running = true ∧ s.clock.ramp = .none ∧
      crosses (s.clock.pos.extractLsb' 32 32) tick = false ∧
      (s.clock.cues.filter fun x => atOrBefore x.tick tick).length = 1 := by decide +kernel

/-- A running step of a ramp at rate `w`. -/
def rampStep (r : Ramp) (w : BitVec 32) : State :=
  base.modClock fun c => { c with running := true, ramp := r, rate := w, nextBeat := 0 }

/-- Glides and curves before their last step and at it, and steps past each rate limit. -/
theorem test_hyp_RampsEnd_steps :
    (∀ x ∈ [((4123168603 : BitVec 32), (1 : Int), 2), (4123168603, 1, 1), (137438955, -1, 2), (137438955, -1, 1),
        (137438954, -1, 2), (4123168604, 1, 2)],
      let s := rampStep (.glide 1374389535 x.2.1 x.2.2) x.1
      let curve := rampStep (.curve x.2.1 7 x.2.2) x.1
      s.resetLow = false ∧ s.clock.running = true ∧ s.clock.nextBeat = s.now ∧ s.clock.cues = [] ∧
        crosses (s.clock.pos.extractLsb' 32 32) ((s.clock.pos + s.clock.rate.setWidth 64).extractLsb' 32 32) = false ∧
        s.clock.ramp = .glide 1374389535 x.2.1 x.2.2 ∧ curve.clock.ramp = .curve x.2.1 7 x.2.2) ∧
      (4123168603 : Int) + 1 ≤ 4123168604 ∧ 137438954 ≤ (137438955 : Int) + -1 ∧ (137438954 : Int) + -1 < 137438954 ∧
      4123168604 < (4123168604 : Int) + 1 := by decide +kernel

/-- The kinds that settling tells apart, on a board with hold mask 80₁₆. -/
theorem test_hyp_CurveAndRelease_settle :
    Channel.reset.kind = none ∧ ({ Channel.reset with kind := some .hold } : Channel).kind = some .hold ∧
      (0x80 : Byte).getLsbD (6 : Fin 8).val = false ∧ (0x80 : Byte).getLsbD (7 : Fin 8).val = true := by decide +kernel

/-- A first byte for each kind of cell, its upper bits set. -/
theorem test_hyp_Cells_kinds :
    [0xF0, 0xF1, 0xF2, 0xF3, 0xF4, 0xF5, 0xF6, 0xF7].map (fun b : Byte => b.toNat % 16) = [0, 1, 2, 3, 4, 5, 6, 7] ∧
      8 ≤ (0x08 : Byte).toNat % 16 ∧ 8 ≤ (0xFF : Byte).toNat % 16 := by decide

/-- R200 and R201: a SET_TEMPO cell of tempo 120.00, duration 12 bits wide, and a HOLD that drops with MARK. -/
theorem test_cells_are_read :
    decodeCell [0xA6, 0x2E, 0xE0, 0x05, 0xFF, 0, 0, 9] = .setTempo 12000 2565 251658249 ∧
      decodeCell [0x33, 0xFF, 0x40, 0, 0, 0, 0, 1] = .hold 127 true 64 true 1 := by decide +kernel

/-- What AFTER is held against: the last queued phrase, the current phrase, and the chain end. -/
theorem test_hyp_Posts_origins :
    let queue : Reader := { Reader.reset with queue := [⟨0, 0, .after, ⟨.free, false, false, 0, 1⟩, false⟩] }
    queue.queue.getLast?.isSome = true ∧ ((playing .playing 11).port 1).reader.queue = [] ∧
      ((playing .playing 11).port 1).reader.current = some (reading 11 0) ∧ Reader.reset.queue = [] ∧
      Reader.reset.current = none ∧ ((600000005 : BitVec 32) - 5).toNat ≤ 600000000 := by decide +kernel

/-- A stroke whose channel has an entry one microsecond outside the merge window. -/
theorem test_hyp_Immediate_apart :
    let s := { withReady 7 .strike base with timeline := [{ partnerOf 100 1 with target := 20271 }] }
    s.channelCheck 7 .strike = none ∧ (∀ e ∈ s.timeline, s.settings.mergeWindow <
        distance e.target (plus s.now (s.settings.frameTime + (figuresOf (s.chan 7) 100).flight * 10))) ∧
      (s.timeline.map fun e => distance e.target (plus s.now (s.settings.frameTime +
        (figuresOf (s.chan 7) 100).flight * 10))) = [6001] := by decide +kernel

/-! #### Cells met by the reader -/

/-- The port of `region` at stage time 60,000, with other bytes in cell 11 and the current record changed; channel 64 is
a READY strike channel and 65 a READY hold channel. -/
def atCell (bytes : List Byte) (f : OpenRec → OpenRec) : State :=
  withReady 65 .hold (withReady 64 .strike { base.modPort 1 (fun r =>
    { r with mem := writeBytes region 88 bytes,
             reader := { r.reader with state := .playing, opened := [f (reading 11 0)] } }) with now := 60000 })

/-- Record `o` of port 1 stands at a cell of offset `offset`, which lies at `target`, within the horizon. -/
def meets (s : State) (o : OpenRec) (cell : Cell) (offset : Nat) (target : StageTime) : Bool :=
  (s.port 1).reader.current == some o && decide (o.addr < 2048) && !(s.port 1).reader.isHeld &&
    decodeCell (readCell (s.port 1).mem o.addr) == cell && cell.offset == some offset &&
    s.targetOf o o.pass offset == some target && !later target (plus s.now (s.settings.horizon * 1000))

/-- `id` on a record, its origin moved. -/
def aimed (n : BitVec 32) (o : OpenRec) : OpenRec := { o with origin := n }

/-- Cells that wait: no target under a stopped clock, and a target past the horizon. -/
theorem test_hyp_Cells_wait :
    (atCell [2, 64, 100, 0, 0, 0, 0, 0] fun o => { o with clock := .beat }).targetOf
        { reading 11 0 with clock := .beat } 0 0 = none ∧
      (atCell [2, 64, 100, 0, 0, 0, 0x27, 0x11] id).targetOf (reading 11 0) 0 10001 = some 160001 ∧
      later 160001 (plus 60000 (base.settings.horizon * 1000)) = true := by decide +kernel

/-- Cells that are consumed at once: CLIPPED at the length, a silent stroke, a bare REST, SET_LEVEL, and a muted one. -/
theorem test_hyp_Cells_consumed :
    meets (atCell [2, 64, 100, 0, 0, 0, 0, 7] fun o => { o with length := 7 }) { reading 11 0 with length := 7 }
        (.stroke 64 100 false false 7) 7 150007 = true ∧
      meets (atCell [0x32, 64, 0, 0, 0, 0, 0, 0] id) (reading 11 0) (.stroke 64 0 true true 0) 0 150000 = true ∧
      meets (atCell [7, 0, 0, 0, 0, 0, 0, 0] id) (reading 11 0) (.rest false 0) 0 150000 = true ∧
      meets (atCell [5, 0, 255, 0, 0, 0, 0, 0] id) (reading 11 0) (.setLevel 255 0) 0 150000 = true ∧
      meets ((atCell [2, 64, 100, 0, 0, 0, 0, 0] id).modReader 1 fun rd => { rd with level := 0 }) (reading 11 0)
        (.stroke 64 100 false false 0) 0 150000 = true ∧
      effectiveVelocity 100 0 false 12 = none := by decide +kernel

/-- Strokes given an outcome: on an absent channel, and 5,001 µs past the ideal send. -/
theorem test_hyp_Cells_strokes :
    let absent := atCell [2, 63, 100, 0, 0, 0, 0, 0] id
    let late := atCell [2, 64, 100, 0, 0, 0, 0, 0] (aimed 69269)
    meets absent (reading 11 0) (.stroke 63 100 false false 0) 0 150000 = true ∧
      absent.channelCheck 63 .strike = some .absent ∧
      meets late (aimed 69269 (reading 11 0)) (.stroke 64 100 false false 0) 0 69269 = true ∧
      late.channelCheck 64 .strike = none ∧
      effectiveVelocity 100 (late.port 1).reader.level false late.settings.accentBoost = some 100 ∧
      minus (minus 69269 ((figuresOf (late.chan 64) 100).flight * 10)) late.settings.frameTime = 54999 ∧
      later 54999 late.now = false ∧ late.settings.tolerance < since 54999 late.now := by decide +kernel

/-- HOLD cells: on an absent channel, too late by one, at the end of the tolerance, and in time; with room and without. -/
theorem test_hyp_Cells_holds :
    let bytes : List Byte := [0x13, 65, 0, 0, 0, 0, 0, 0]
    meets (atCell [0x23, 66, 0, 0, 0, 0, 0, 0] id) (reading 11 0) (.hold 66 true 0 false 0) 0 150000 = true ∧
      (atCell [0x23, 66, 0, 0, 0, 0, 0, 0] id).channelCheck 66 .hold = some .absent ∧
      meets (atCell bytes (aimed 55019)) (aimed 55019 (reading 11 0)) (.hold 65 false 0 true 0) 0 55019 = true ∧
      meets (atCell bytes (aimed 55020)) (aimed 55020 (reading 11 0)) (.hold 65 false 0 true 0) 0 55020 = true ∧
      meets (atCell bytes id) (reading 11 0) (.hold 65 false 0 true 0) 0 150000 = true ∧
      (atCell bytes id).channelCheck 65 .hold = none ∧ base.settings.frameTime = 20 ∧
      later 54999 (60000 : StageTime) = false ∧ base.settings.tolerance < since 54999 (60000 : StageTime) ∧
      later 55000 (60000 : StageTime) = false ∧ since 55000 (60000 : StageTime) ≤ base.settings.tolerance ∧
      later 149980 (60000 : StageTime) = true ∧ admits (atCell bytes id).timeline 1 = true ∧
      admits ({ atCell bytes id with timeline := crowd 192 32 32 } : State).timeline 1 = false := by decide +kernel

/-- A REST with MARK, and SET_TEMPO in a free and in a beat phrase, with room for a cue and without. -/
theorem test_hyp_Cells_marks_and_tempos :
    let bytes : List Byte := [6, 0, 0, 0, 0, 0, 0, 0]
    let beat := (atCell bytes fun o => { o with clock := .beat, origin := 0 }).modClock fun c => { c with running := true }
    meets (atCell [0x17, 0, 0, 0, 0, 0, 0, 0] id) (reading 11 0) (.rest true 0) 0 150000 = true ∧
      meets (atCell bytes id) (reading 11 0) (.setTempo 0 0 0) 0 150000 = true ∧
      0 < ((150000 : StageTime) - base.clock.tB).toInt ∧ ((150000 : StageTime) - base.clock.tB).toInt ≤ 500 * 300 ∧
      (500 : Int) * 300 < ((150000 : StageTime) - base.clock.tB).toInt + 500 ∧
      meets beat { reading 11 0 with clock := .beat, origin := 0 } (.setTempo 0 0 0) 0 0 = true ∧
      beat.clock.cues.length < 4 ∧ 4 ≤ (List.replicate 4 (⟨0, 6000, 0, OwnerRef.bare 0⟩ : TempoCue)).length := by
  decide +kernel

/-- The tick distances of R63: half the circle, beyond 65,536 ticks, at them, and behind by more and by less. -/
theorem test_hyp_Cells_targets :
    let s := base.modClock fun c => { c with running := true, pos := 70000 * 4294967296 }
    s.clock.tick = 70000 ∧ since s.clock.tick 2147553648 = 2 ^ 31 ∧ earlier s.clock.tick 135537 = true ∧
      65536 < since s.clock.tick 135537 ∧ since s.clock.tick 135536 ≤ 65536 ∧
      (((135536 : Nat) - 70000 : Int) = since s.clock.tick 135536) ∧ earlier 0 s.clock.tick = true ∧
      (-65536 : Int) = max (-65536) (-(since (0 : Tick) s.clock.tick : Int)) ∧ earlier 69999 s.clock.tick = true ∧
      (-1 : Int) = max (-65536) (-(since (69999 : Tick) s.clock.tick : Int)) := by decide +kernel

/-! #### Passes -/

/-- The state a reading goes on from. -/
def goesOn (s : State) : Option State :=
  match s.readOne 1 with
  | .more m => some m
  | .stop _ => none

/-- Whether the reader of port 1 reads on over `n` cells and is stopped by the next. -/
def stopsAfter : Nat → State → Bool
  | 0, s => (goesOn s).isNone
  | n + 1, s => match goesOn s with
    | some m => stopsAfter n m
    | none => false

theorem goesOn_some {s m : State} (h : goesOn s = some m) : s.readOne 1 = .more m := by
  unfold goesOn at h
  split at h <;> simp_all

theorem readsTo_of_stopsAfter (n : Nat) (s : State) (h : stopsAfter n s = true) : ∃ t, State.ReadsTo 1 n s t := by
  induction n generalizing s with
  | zero =>
    unfold stopsAfter goesOn at h
    split at h
    · simp at h
    · rename_i t ht
      exact ⟨t, ht⟩
  | succ n ih =>
    unfold stopsAfter at h
    split at h
    · rename_i m hm
      obtain ⟨t, ht⟩ := ih m h
      exact ⟨t, m, goesOn_some hm, ht⟩
    · simp at h

/-- The state that a pass of port 1 reads from. -/
def passStart (s : State) : State :=
  let aged := s.modPort 1 fun r => { r with reader := r.reader.age s.now s.clock.tick, nextPass := s.now + 500 }
  (aged.takePhrase 1).getD aged

/-- A pass due at the STROKE of `region`, waiting for its horizon, and one due as it comes within it. -/
theorem test_hyp_ReaderPasses_read :
    ∀ x ∈ [(40000, 0), (50000, 1)],
      let s := (arriving.modPort 1 fun r => { r with nextPass := BitVec.ofNat 32 x.1 })
      let due : State := { s with now := BitVec.ofNat 32 x.1 }
      due.resetLow = false ∧ (due.port 1).nextPass = due.now ∧ due.safeLow = false ∧ (due.port 1).reader.isHeld = false ∧
        x.2 < 2 ^ 32 ∧ stopsAfter x.2 (passStart due) = true := by decide +kernel

/-- A pass over a REST at cell 11 and a LINK back to it: it reads for ever. -/
def endless : State :=
  (atCell [7, 0, 0, 0, 0, 0, 0, 0, 4, 0, 0, 11, 0, 0, 0, 0] fun o => { o with length := 0 }).modPort 1 fun r =>
    { r with nextPass := 60000 }

/-- Port 1 reads that loop: its record `o` stands at the REST, or at the LINK with no LINK behind it. -/
def Loops (s : State) : Prop :=
  decodeCell (readCell (s.port 1).mem 11) = .rest false 0 ∧ decodeCell (readCell (s.port 1).mem 12) = .link 11 ∧
    ∃ o, (s.port 1).reader.opened = [o] ∧ o.reading = .reading ∧ o.length = 0 ∧ s.reachable o o.pass 0 = some 150000 ∧
      (o.addr = 11 ∨ o.addr = 12 ∧ o.links = 0)

theorem loops_on (s : State) (h : Loops s) : ∃ m, s.readOne 1 = .more m ∧ Loops m := by
  obtain ⟨hr, hl, o, ho, hg, hz, ht, ha | ⟨ha, hk⟩⟩ := h
  · refine ⟨s.stepPast 1 o, ?_, ?_, ?_, { o with addr := o.addr + 1, links := 0 }, ?_, hg, hz, ht, .inr ⟨?_, rfl⟩⟩
    · simp [State.readOne, Reader.current, ho, hg, ha, hr, State.readTimed, ht, hz, State.actOn]
    all_goals simp [State.stepPast, State.modReader, Reader.modRecord, ho, hr, hl, ha]
  · refine ⟨s.modReader 1 (Reader.modRecord o.serial fun x => { x with links := x.links + 1, addr := 11 }), ?_, ?_, ?_,
      { o with links := o.links + 1, addr := 11 }, ?_, hg, hz, ht, .inl rfl⟩
    · simp [State.readOne, Reader.current, ho, hg, ha, hl, hk, State.readLink]
    all_goals simp [State.modReader, Reader.modRecord, ho, hr, hl]

theorem test_hyp_ReaderPasses_endless :
    endless.resetLow = false ∧ (endless.port 1).nextPass = endless.now ∧ endless.safeLow = false ∧
      (endless.port 1).reader.isHeld = false ∧ ∀ n t, ¬State.ReadsTo 1 n (passStart endless) t := by
  have never : ∀ n s t, Loops s → ¬State.ReadsTo 1 n s t := by
    intro n
    induction n with
    | zero => intro s t h; obtain ⟨m, hm, -⟩ := loops_on s h; simp [State.ReadsTo, hm]
    | succ n ih =>
      intro s t h
      obtain ⟨m, hm, h'⟩ := loops_on s h
      simp only [State.ReadsTo, hm, Read.more.injEq]
      exact fun ⟨m', e, r⟩ => ih m t h' (e ▸ r)
  refine ⟨by decide +kernel, by decide +kernel, by decide +kernel, by decide +kernel, fun n t => never n _ t ?_⟩
  exact ⟨by decide +kernel, by decide +kernel, { reading 11 0 with length := 0 }, by decide +kernel⟩

/-- A reader that a stored time has passed in, and one that it has not; a chain end of each clock. -/
theorem test_hyp_ReaderPasses_age :
    atOrBefore (7 : StageTime) 7 = true ∧ atOrBefore (8 : StageTime) 7 = false ∧
      ({ Reader.reset with chainEnd := some ⟨.beat, 6⟩ } : Reader).chainEnd = some ⟨.beat, 6⟩ ∧
      Reader.reset.chainEnd = none := by decide +kernel

/-- A port with one queued phrase of an origin and nothing open; tick 383 and beat 3 of 4 for NEXT_BAR. -/
def queuedAt (o : Origin) (chainEnd : Option ChainEnd) : State :=
  (base.modClock fun c => { c with pos := 383 * 4294967296, beat := 3 }).modReader 1 fun rd =>
    { rd with queue := [⟨5, 10, o, ⟨.free, false, false, 0, 1⟩, false⟩], chainEnd := chainEnd }

theorem test_hyp_ReaderPasses_takes :
    (∀ o ∈ [Origin.atTick 9, .nextBar, .atTime 9, .nowPlus 600000, .after],
      let s := queuedAt o none
      s.safeLow = false ∧ (s.port 1).reader.isHeld = false ∧ (s.port 1).reader.current = none ∧
        (s.port 1).reader.opened.length < 8 ∧ (s.port 1).reader.queue.map QueueSlot.origin = [o]) ∧
      (let c := (queuedAt .nextBar none).clock
       c.tick.toNat + 384 * (c.meter - c.beat) < 2 ^ 32 ∧ c.beat < c.meter ∧
         (384 : BitVec 32).toNat = c.tick.toNat - c.tick.toNat % 384 + 384 * (c.meter - c.beat)) ∧
      ((queuedAt .after (some ⟨.free, 4⟩)).port 1).reader.chainEnd = some ⟨.free, 4⟩ := by decide +kernel

/-- The cells that end a pass or move it: address 2048, an undefined kind, LINKs sixteenth and seventeenth in their run,
and END with passes left whose next origin waits, or is within the horizon. -/
theorem test_hyp_ReaderPasses_control :
    ((atCell [] fun o => { o with addr := 2048 }).port 1).reader.current = some (reading 2048 0) ∧
      decodeCell (readCell ((atCell [15, 0, 0, 0, 0, 0, 0, 0] id).port 1).mem 11) = .undefined ∧
      decodeCell (readCell ((atCell [4, 0, 7, 255, 0, 0, 0, 0] id).port 1).mem 11) = .link 2047 ∧
      ((atCell [4, 0, 7, 255, 0, 0, 0, 0] fun o => { o with links := 15 }).port 1).reader.current.map OpenRec.links =
        some 15 ∧
      ((atCell [4, 0, 7, 255, 0, 0, 0, 0] fun o => { o with links := 16 }).port 1).reader.current.map OpenRec.links =
        some 16 ∧
      decodeCell (readCell ((atCell [0, 0, 0, 0, 0, 0, 0, 0] id).port 1).mem 11) = .endCell ∧
      (let r := { reading 11 0 with passesLeft := 1 }
       let s := atCell [0, 0, 0, 0, 0, 0, 0, 0] fun o => { o with passesLeft := 1 }
       s.targetOf { r with clock := .beat } (r.pass + 1) 0 = none ∧ s.targetOf r (r.pass + 1) 0 = some 550000 ∧
         later 550000 (plus s.now (s.settings.horizon * 1000)) = true ∧
         s.targetOf { r with length := 10000 } (r.pass + 1) 0 = some 160000 ∧
         later 160000 (plus s.now (s.settings.horizon * 1000)) = false) := by decide +kernel

/-- R66: the seventeenth LINK in a row holds the port, and R64: a LINK is read at once. -/
theorem test_links_in_a_row :
    (goesOn (atCell [4, 0, 7, 255, 0, 0, 0, 0] fun o => { o with links := 15 })).map
        (fun m => (m.port 1).reader.opened.map fun o => (o.addr, o.links)) = some [(2047, 16)] ∧
      (goesOn (atCell [4, 0, 7, 255, 0, 0, 0, 0] fun o => { o with links := 16 })).isNone = true := by decide +kernel

/-! #### Scans, launches, reports and outcomes -/

/-- A scan of D0 that SAFE interrupts: PING 0 delivered and answered, PING 1 in transmission, PINGs 2 and 3 waiting. -/
def interrupted : State :=
  base.modChain 0 fun ch => { ch with
    sending := some (.ping 1, 0), queue := [.ping 2, .ping 3], busyUntil := some 60
    scan := some (scanOf .request #v[some 0x0F, none, none, none]) }

theorem test_hyp_SafeEntry_scan :
    interrupted.resetLow = false ∧ interrupted.safeLow = false ∧ (interrupted.chain 0).scan.isSome = true ∧
      (interrupted.chain 0).sending = some (.ping 1, 0) ∧ (interrupted.chain 1).scan = none ∧
      ({ base with safeLow := true } : State).safeLow = true := by decide +kernel

/-- R151: the entry keeps board 0, and shuts out the boards whose PING was not delivered. -/
theorem test_safe_entry_in_a_scan :
    (see .safeEntry interrupted fun t => (t.chain 0).scan) =
      some (some ⟨0, .request, #v[some 0x0F, none, none, none], #v[true, false, false, false]⟩) := by decide +kernel

/-- R151: after that entry a HELLO of board 1 is of no board that the scan collects, and one of board 0 is. -/
theorem test_hello_after_safe_entry :
    let s : State := { interrupted.modChain 0 fun ch => { ch with
      scan := some ⟨0, .request, #v[some 0x0F, none, none, none], #v[true, false, false, false]⟩ } with safeLow := true }
    (see (.reportReceive 0 (0x540001#24 ++ crc8 [0x54, 0, 1])) s fun t => t.chain 0) = some (s.chain 0) ∧
      (see (.reportReceive 0 (0x500003#24 ++ crc8 [0x50, 0, 3])) s fun t => (t.chain 0).scan.map Scan.found) =
        some (some #v[some 3, none, none, none]) := by decide +kernel

/-- A collecting scan, and one that does not listen for the board of the HELLO. -/
theorem test_hyp_Reports_listens :
    (Vector.replicate 4 true)[(2 : Fin 4)] = true ∧ (#v[true, false, false, false])[(2 : Fin 4)] = false := by decide

/-- Strokes retimed or dropped: channel absent, slot occupied with ready-after sooner and later than 1 ms on, sag, supply
limit reached by strikes and by holds alone, and a full chain queue. -/
theorem test_hyp_Checks_strokes :
    let full (t : Option StageTime) : List Member := [⟨8, t⟩, ⟨9, none⟩, ⟨10, none⟩, ⟨11, none⟩]
    let s := launching 285 0
    let crowded := s.modChain 0 fun ch => { ch with queue := List.replicate 16 .safeAll }
    (s.modChan 3 fun ch => { ch with presence := .absent }).channelCheck 3 .strike = some .absent ∧
      s.timeline = [due (.strike 3 ⟨100, 285, 1425, 5, 9⟩)] ∧ (s.chan 3).slot = none ∧ (s.chan 3).readyAfter = none ∧
      later 1001 s.now = true ∧ later 1001 (s.now + 1000) = true ∧ later 1000 (s.now + 1000) = false ∧
      (({ s with supplyLow := true } : State).channelCheck 3 .strike = none) ∧
      s.settings.supplyLimit ≤ (full none).length ∧ strikeTill (full none) 3 = none ∧ earliestTill (full none) = none ∧
      earliestTill (full (some 5001)) = some 5001 ∧ earliestTill (full (some 0)) = some 0 ∧
      s.energised.length < s.settings.supplyLimit ∧ 285 ≤ (s.chan 3).scalars.heatLimit - (s.chan 3).heat ∧
      16 ≤ (crowded.chain (chainOf 3)).queue.length := by decide +kernel

/-- The slot-occupied clause whole, and the proposals at the tolerance and past it. -/
theorem test_hyp_Checks_slot :
    let s := (launching 285 0).modChan 3 fun ch => { ch with slot := some jamSlot, readyAfter := some 1001 }
    s.resetLow = false ∧ s.channelCheck 3 .strike = none ∧ (s.chan 3).slot = some jamSlot ∧
      (s.chan 3).readyAfter = some 1001 ∧ ((5000 : StageTime) - (due .mark).ideal).toNat ≤ s.settings.tolerance ∧
      s.settings.tolerance < ((5001 : StageTime) - (due .mark).ideal).toNat := by decide +kernel

/-- Damper movements dropped or retimed: an absent channel, a sag, a full energised set, and a full chain queue. -/
theorem test_hyp_Checks_holds :
    let s := holding (.lift 127 255)
    let full := List.replicate 4 (⟨1, none⟩ : Member)
    let crowded := (holding (.drop 127)).modChain 3 fun ch => { ch with queue := List.replicate 16 .safeAll }
    s.timeline = [due (.lift 127 255)] ∧ s.channelCheck 127 .hold = none ∧ (s.chan 127).hold = none ∧
      s.settings.supplyLimit ≤ full.length ∧ strikeTill full 127 = none ∧
      s.energised.length < s.settings.supplyLimit ∧ crowded.timeline = [due (.drop 127)] ∧
      crowded.channelCheck 127 .hold = none ∧ 16 ≤ (crowded.chain (chainOf 127)).queue.length ∧
      (holding (.drop 126)).channelCheck 126 .hold = some .absent := by decide +kernel

/-- A NO_CONTACT that matches below the miss limit, at it, and one that is stale. -/
theorem test_hyp_Contacts_silent :
    let s := jammed (.noContact 1) 50
    s.resetLow = false ∧ (s.chain 0).reports = [⟨.noContact 1, 2, 4, 0⟩] ∧ (s.chain 0).lastTake = none ∧
      s.now = plus 0 50 ∧ chanAt 0 2 4 = 20 ∧ (s.chan 20).kind ≠ some .hold ∧ (s.chan 20).slot = some jamSlot ∧
      jamSlot.tag = 1 ∧ (s.chan 20).presence ≠ .faulted ∧ (s.chan 20).scalars.missLimit = (s.chan 20).misses + 1 ∧
      (s.modChan 20 fun ch => { ch with misses := 1 }).settings = s.settings ∧
      ((jammed (.noContact 2) 50).chain 0).reports = [⟨.noContact 2, 2, 4, 0⟩] := by decide +kernel

/-- R158: the third miss of channel 20 faults it. -/
theorem test_no_contact_reaches_the_limit :
    (see (.reportTake 0) (jammed (.noContact 1) 50) fun t => ((t.chan 20).presence, (t.chan 20).cause, (t.chan 20).misses)) =
      some (.faulted, some .misses, 3) := by decide +kernel

/-- A HOLD channel with each of the three reports, READY and already FAULTED. -/
theorem test_hyp_FaultReports_hold :
    ∀ k ∈ [ReportKind.coilOpen 3, .coilShort 3, .jam],
      let h := (jammed k 50).modChan 20 fun ch => { ch with kind := some .hold, slot := none }
      let f := h.modChan 20 fun ch => { ch with presence := .faulted, cause := some .misses }
      (h.chain 0).reports = [⟨k, 2, 4, 0⟩] ∧ (h.chain 0).lastTake = none ∧ h.now = plus 0 50 ∧
        (h.chan 20).kind = some .hold ∧ (h.chan 20).presence ≠ .faulted ∧ (f.chan 20).kind = some .hold ∧
        (f.chan 20).presence = .faulted := by decide +kernel

/-- Coil faults that match the slot of a STRIKE channel, READY and already FAULTED. -/
theorem test_hyp_FaultReports_slot :
    ∀ k ∈ [ReportKind.coilOpen 1, .coilShort 1],
      let s := jammed k 50
      (s.chain 0).reports = [⟨k, 2, 4, 0⟩] ∧ (s.chan 20).kind ≠ some .hold ∧ (s.chan 20).slot = some jamSlot ∧
        jamSlot.tag = 1 ∧ (s.chan 20).presence ≠ .faulted ∧
        ((s.modChan 20 fun ch => { ch with presence := .faulted }).chan 20).slot = some jamSlot := by decide +kernel

/-- A deadline on a channel short of its miss limit, and on one already FAULTED. -/
theorem test_hyp_Deadlines_short :
    let s := (jammed .jam 60100020).modChan 20 fun ch => { ch with misses := 1 }
    let f := (jammed .jam 60100020).modChan 20 fun ch => { ch with presence := .faulted }
    (s.chan 20).slot = some jamSlot ∧ (s.chan 20).misses + 1 < (s.chan 20).scalars.missLimit ∧
      (f.chan 20).slot = some jamSlot ∧ (f.chan 20).presence = .faulted := by decide +kernel

/-- Outcomes at a port: filtered, appended to the 64th place, lost; with no phrase, of no open record, stopping and not,
and done. -/
theorem test_hyp_Delivery :
    let records (n : Nat) : NoticeUnit := { NoticeUnit.reset with
      records := List.replicate n (completionOf 0 (OwnerRef.bare 1) (.plain .muted none)) }
    let x : OpenRec := { reading 11 1 with stopOnFault := true }
    let rd : Reader := { Reader.reset with opened := [x] }
    let gone : OpenRec := { x with reading := .ended }
    NoticeUnit.reset.filter = .exceptions ∧ OutcomeCode.struck.isException = false ∧
      OutcomeCode.noReport.isException = true ∧ (records 63).records.length < 64 ∧ 64 ≤ (records 64).records.length ∧
      (OwnerRef.bare 1).phrase = none ∧ (∀ y ∈ Reader.reset.opened, y.serial ≠ 0) ∧ x ∈ rd.opened ∧ x.serial = 0 ∧
      (∀ y ∈ rd.opened, y.serial = 0 → y = x) ∧ x.stopOnFault = true ∧ rd.isHeld = false ∧ (reading 11 1).stopOnFault = false ∧
      ¬(x.reading ≠ .reading ∧ x.outstanding ≤ 1) ∧ (gone.reading ≠ .reading ∧ gone.outstanding ≤ 1) := by
  decide +kernel

/-- R75: a FAULT outcome of a phrase that stops on it holds the port. -/
theorem test_stop_on_fault :
    (((base.modReader 1 fun rd => { rd with state := .playing, opened := [{ reading 11 1 with stopOnFault := true }] }).deliver
      ⟨1, some ⟨0, 11⟩, 0, false⟩ (.plain .fault none)).port 1).reader.state = .held .faultStop := by decide +kernel

/-- Sources enabled and not, the level sources with their edge bits, and the two ways ATN is asserted. -/
theorem test_hyp_NoteSources :
    NoticeUnit.reset.enables.getLsbD Source.beat.num = false ∧ (0x100 : BitVec 14).getLsbD Source.beat.num = true ∧
      [Source.doneHigh, .timelineHigh, .supply, .safe].map Source.num = [9, 10, 12, 13] ∧
      (0x200 : BitVec 14).getLsbD Source.doneHigh.num = true := by decide +kernel

/-! #### The further clauses of the wide statements -/

/-- Two cues on the list, of ports 2 and 1. -/
def cued : State :=
  base.modClock fun c => { c with cues := [⟨0, 6000, 0, OwnerRef.bare 2⟩, ⟨5, 6000, 0, OwnerRef.bare 1⟩] }

theorem test_hyp_PlaceRequests_cues :
    cued.resetLow = false ∧ cued.inStartUp = false ∧ (3 : Byte).toNat < cued.clock.meter ∧ cued.clockShared = false ∧
      cued.clock.cues.length = 2 := by decide +kernel

/-- R14: a PLACE drops each cue on its owner. -/
theorem test_place_drops_the_cues :
    (see (.clkPlace 0 0 9 8 3) cued fun t => (List.finRange 3).map fun p =>
      (t.port p).unit.records.map Completion.outcome) = some [[], [.cueDropped], [.cueDropped]] := by decide +kernel

/-- A port with no phrase, one whose current phrase has outcomes to come, and one whose has none. -/
theorem test_hyp_Stops_current :
    (composed.port 1).reader.current = none ∧
      ((playing .playing 11).port 1).reader.current = some (reading 11 0) ∧ (reading 11 0).outstanding = 0 ∧
      ((atCell [] fun _ => reading 11 2).port 1).reader.current = some (reading 11 2) ∧
      ((atCell [] fun _ => reading 11 2).port 1).reader.readingCount ≤ 1 ∧
      ((atCell [] fun _ => reading 11 2).port 1).reader.opened = [reading 11 2] := by decide +kernel

/-- R108: a CUT gives WITHDRAWN to the port's reference of a shared entry, and leaves the other. -/
theorem test_cut_withdraws :
    (see (.portStop 1 2) { base with timeline := [{ partnerOf 100 1 with owners := [OwnerRef.bare 0, OwnerRef.bare 1] }] }
      fun t => (t.timeline.map Entry.owners, (t.port 0).unit.records.length,
        (t.port 1).unit.records.map Completion.outcome)) = some ([[OwnerRef.bare 0]], 0, [.withdrawn]) := by decide +kernel

/-- Ports that play, drain, are IDLE and HELD at the entry into the safe state, with work armed. -/
theorem test_hyp_SafeEntry_ports :
    let s : State := { playing .playing 11 with timeline := [partnerOf 100 1] }
    s.resetLow = false ∧ s.safeLow = false ∧ s.timeline ≠ [] ∧ (s.port 1).reader.state = .playing ∧
      (s.port 0).reader.state = .idle ∧ ((playing .draining 11).port 1).reader.state = .draining ∧
      ((playing (.held .safe) 11).port 1).reader.state = .held .safe := by decide +kernel

/-- R110 and R131: the entry gives SAFED to the armed reference and holds the playing port. -/
theorem test_safe_entry_gives_safed :
    (see .safeEntry { playing .playing 11 with timeline := [partnerOf 100 1] } fun t =>
      ((t.port 0).unit.records.map Completion.outcome, (t.port 1).reader.state)) =
      some ([.safed], .held .safe) := by decide +kernel

/-- That damper with no lifting port, and with its chain's queue full. -/
theorem test_hyp_Cooling_stays :
    let s := hot.modChan 100 fun ch => { ch with hold := some ⟨255, none⟩ }
    let f := hot.modChain 3 fun ch => { ch with queue := List.replicate 16 .safeAll }
    (s.chan 100).hold = some ⟨255, none⟩ ∧ (s.chain (chainOf 100)).queue.length < 16 ∧ f.resetLow = false ∧
      (f.chan 100).hold = some ⟨255, some 2⟩ ∧ 16 ≤ (f.chain (chainOf 100)).queue.length := by decide +kernel

/-- R130: the lifting port is told; with the queue full the hold stays LIFTED at its limit. -/
theorem test_forced_drop_needs_room :
    (see .coolingStep hot fun t => ((t.chan 100).hold, (t.port 2).unit.records.map Completion.outcome)) =
        some (none, [.holdDropped]) ∧
      (see .coolingStep (hot.modChain 3 fun ch => { ch with queue := List.replicate 16 .safeAll }) fun t =>
        ((t.chan 100).hold, (t.chan 100).heat, (t.port 2).unit.records.length)) = some (some ⟨255, some 2⟩, 200, 0) := by
  decide +kernel

/-- A stroke on a channel that is a strike member already, the set full, its ready-after just come. -/
def restruck (till : StageTime) : State :=
  { (launching 285 0).modChan 3 (fun ch => { ch with readyAfter := some 0 }) with
    energised := [⟨0, none⟩, ⟨1, none⟩, ⟨2, none⟩, ⟨3, some till⟩] }

theorem test_hyp_StrokesLaunch_members :
    let s := restruck 2869
    s.timeline = due (.strike 3 ⟨100, 285, 1425, 5, 9⟩) :: [] ∧ s.channelCheck 3 .strike = none ∧ (s.chan 3).slot = none ∧
      (s.chan 3).readyAfter = some 0 ∧ atOrBefore 0 s.now = true ∧ s.supplyLow = false ∧
      s.settings.supplyLimit ≤ s.energised.length ∧ strikeTill s.energised 3 = some 2869 := by decide +kernel

/-- R115: a second launch at 20 with a pulse of 2,850 µs ends at 2,870, or at the end the member holds if that is later. -/
theorem test_energised_until_is_the_later :
    (see .presentation (restruck 2869) fun t => strikeTill t.energised 3) = some (some 2870) ∧
      (see .presentation (restruck 2871) fun t => strikeTill t.energised 3) = some (some 2871) := by decide +kernel

/-- A STROKE cell on channel 64 at the end of the late tolerance, in time, and in a beat phrase; with room and without. -/
theorem test_hyp_Cells_strokes_armed :
    let bytes : List Byte := [2, 64, 100, 0, 0, 0, 0, 0]
    let edge := atCell bytes (aimed 69270)
    let beat := (atCell bytes fun o => { o with clock := .beat, origin := 100 }).modClock fun c => { c with running := true }
    meets edge (aimed 69270 (reading 11 0)) (.stroke 64 100 false false 0) 0 69270 = true ∧
      minus (minus 69270 ((figuresOf (edge.chan 64) 100).flight * 10)) edge.settings.frameTime = 55000 ∧
      later 55000 edge.now = false ∧ since 55000 edge.now ≤ edge.settings.tolerance ∧ edge.timeline = [] ∧
      meets beat { reading 11 0 with clock := .beat, origin := 100 } (.stroke 64 100 false false 0) 0 130208 = true ∧
      beat.channelCheck 64 .strike = none ∧ later (minus (minus 130208 14250) 20) beat.now = true ∧
      admits beat.timeline 1 = true ∧ admits (crowd 192 32 32) 1 = false ∧
      (crowd 192 32 32).all (fun e => e.action == .mark) = true := by decide +kernel

/-- The entry of a stroke of v_eff `v` on channel 64 with `n` owners, aimed one merge window before 150,000. -/
def partner64 (v n : Nat) : Entry :=
  { partnerOf v n with action := .strike 64 (figuresOf Channel.reset v), target := 144000 }

/-- STROKE cells of v_eff 100 that find a harder, a softer and a full partner. -/
theorem test_hyp_Cells_strokes_merged :
    let s : State := { atCell [2, 64, 100, 0, 0, 0, 0, 0] id with timeline := [partner64 99 3] }
    meets s (reading 11 0) (.stroke 64 100 false false 0) 0 150000 = true ∧ s.timeline = [] ++ partner64 99 3 :: [] ∧
      s.channelCheck 64 .strike = none ∧ later (minus (minus 150000 14250) 20) s.now = true ∧
      distance (partner64 99 3).target 150000 ≤ s.settings.mergeWindow ∧ (partner64 99 3).owners.length < 4 ∧
      (figuresOf Channel.reset 99).vEff < (figuresOf (s.chan 64) 100).vEff ∧
      (figuresOf (s.chan 64) 100).vEff ≤ (figuresOf Channel.reset 100).vEff ∧ 4 ≤ (partner64 100 4).owners.length := by
  decide +kernel

/-- R104 and R105: the harder stroke of a cell gives the entry its figures; a full partner absorbs it. -/
theorem test_stroke_cells_merge :
    let read (n : Nat) : Read :=
      State.readOne { atCell [2, 64, 100, 0, 0, 0, 0, 0] id with timeline := [partner64 99 n] } 1
    (match read 3 with
      | .more t => t.timeline.map (fun e => (e.action.vEff, e.owners.length, e.merged))
      | .stop _ => []) = [(100, 4, true)] ∧
    (match read 4 with
      | .more t => ((t.port 1).unit.records.map Completion.outcome, t.timeline.length)
      | .stop _ => ([], 0)) = ([.absorbed], 1) := by decide +kernel

/-- A take that the previous one, 10 µs after the report was placed, holds back until 60. -/
def heldBack (kind : ReportKind) (now : StageTime) : State :=
  { (jammed kind 50).modChain 0 (fun ch => { ch with lastTake := some 10 }) with now := now }

theorem test_hyp_TakesAt :
    (((jammed (.contact 1 1598) 50).chain 0).TakesAt 0 50) ∧ ((heldBack (.contact 1 1598) 60).chain 0).TakesAt 0 60 ∧
      (heldBack (.contact 1 1598) 59).now = 59 ∧ later 60 (heldBack (.contact 1 1598) 59).now = true :=
  ⟨.inl (by decide +kernel), .inr ⟨10, by decide +kernel, by decide +kernel⟩, rfl, by decide⟩

/-- R154: the report stays at 59 and is taken at 60. -/
theorem test_take_is_held_back :
    [(59 : StageTime), 60].map (fun n => see (.reportTake 0) (heldBack (.contact 1 1598) n)
      fun t => (t.chain 0).reports.length) = [some 1, some 0] := by decide +kernel

/-- A CONTACT and a NO_CONTACT for a HOLD channel, and a coil report whose tag matches no slot. -/
theorem test_hyp_stale_reports :
    let h (k : ReportKind) := (jammed k 50).modChan 20 fun ch => { ch with kind := some .hold, slot := none }
    ((h (.contact 1 9)).chan 20).kind = some .hold ∧ ((h (.contact 1 9)).chain 0).reports = [⟨.contact 1 9, 2, 4, 0⟩] ∧
      ((h (.noContact 1)).chain 0).reports = [⟨.noContact 1, 2, 4, 0⟩] ∧
      ((jammed (.coilOpen 2) 50).chain 0).reports = [⟨.coilOpen 2, 2, 4, 0⟩] ∧
      ((jammed (.coilOpen 2) 50).chan 20).kind ≠ some .hold ∧
      ((jammed (.coilOpen 2) 50).chan 20).slot = some jamSlot ∧ jamSlot.tag ≠ 2 := by decide +kernel

/-- R156: such reports count as stale and leave their channel as it was. -/
theorem test_stale_reports :
    (see (.reportTake 0) (jammed (.coilOpen 2) 50) fun t => ((t.chain 0).stale, (t.chan 20).presence)) =
        some (1, .ready) ∧
      (see (.reportTake 0) ((jammed (.contact 1 9) 50).modChan 20 fun ch => { ch with kind := some .hold })
        fun t => ((t.chain 0).stale, (t.chan 20).misses)) = some (1, 2) := by decide +kernel

/-! The invariants hold of `base`, which has a step. -/

/-- `base` with a command waiting. -/
def queued : State := { base with pending := [.syncEdge] }

theorem test_hyp_invariants_step : ∃ t, step queued = .next t := ⟨_, rfl⟩

theorem test_hyp_invariants_clock : queued.RateKept ∧ queued.MeterKept := by
  refine ⟨⟨by unfold rateInRange; decide +kernel, trivial⟩, by unfold meterInRange; decide +kernel, ?_, by decide +kernel⟩
  intro m h
  cases h

theorem test_hyp_invariants_memory : queued.MemoryKept := by
  intro p
  fin_cases p <;> decide +kernel

theorem test_hyp_invariants_capacity : queued.CapacityKept ∧ queued.ReadersKept := by
  unfold State.CapacityKept State.ReadersKept PortRec.Fits Chain.Fits
  decide +kernel

theorem test_hyp_invariants_budgets : queued.SupplyKept ∧ queued.HeatKept ∧ queued.KnotsKept := by
  unfold State.SupplyKept State.HeatKept State.KnotsKept
  decide +kernel

theorem test_hyp_invariants_channels : queued.CausesKept ∧ queued.SlotsKept ∧ queued.ScansKept := by
  unfold State.CausesKept State.SlotsKept State.ScansKept
  decide +kernel

theorem test_hyp_invariants_safe : ({ queued with safeLow := true } : State).SafeKept := by
  unfold State.SafeKept
  decide +kernel

theorem test_hyp_invariants_latches : queued.LatchesKept := by
  intro p i h
  fin_cases p <;> simp [queued, base, State.reset, State.port, PortRec.reset, NoticeUnit.reset] at h

theorem test_hyp_invariants_strokes : (joining 100 4).StrokesKept ∧ (joining 100 4).OwnersKept := by
  refine ⟨List.pairwise_singleton _ _, by decide +kernel, ?_⟩
  intro c slot h
  have : ∀ c, ((joining 100 4).chan c).slot = none := by decide +kernel
  rw [this c] at h
  cases h

theorem test_hyp_invariants_chains : queued.ChainsKept := by
  intro d
  fin_cases d <;> exact ⟨rfl, rfl⟩

end Sys2Proof.Tests
end

section
/-! PROOFS. The beat clock, chapter 01: the rate word of a tempo (R3), the rounded slope of a glide (R16), and the tempo
requests (R15 to R17). -/

namespace Sys2Proof.Machine

/-! ### Requests taken -/

/-- A request is its block's work and the reply, at a part that takes requests. -/
theorem exec_of_taking {i : Instr} {p : Port} {body : Body} {s : State}
    (he : exec i s = .next (takeRequest p body s)) (h : s.Taking) :
    exec i s = .next ((body s).1.reply p (body s).2) := by
  obtain ⟨hreset, hstart⟩ := h
  rw [he, takeRequest_ready hreset hstart]

/-! ### Ranges -/

theorem clampNat_eq_min_max {lo hi : Nat} (h : lo ≤ hi) (n : Nat) : clampNat lo hi n = min hi (max lo n) := by
  unfold clampNat
  split
  · omega
  · split <;> omega

theorem clampNat_ne_self_iff {lo hi : Nat} (h : lo ≤ hi) (n : Nat) : clampNat lo hi n ≠ n ↔ n < lo ∨ hi < n := by
  rw [clampNat_eq_min_max h]
  omega

@[simp] theorem inRange_iff (lo hi n : Nat) : inRange lo hi n = true ↔ lo ≤ n ∧ n ≤ hi := by
  simp [inRange]

/-! ### The rate word of a tempo (R3) -/

@[simp] theorem tempoClamps_iff (h : Nat) : tempoClamps h = true ↔ h < 1000 ∨ 30000 < h := by
  rw [tempoClamps, bne_iff_ne, clampNat_ne_self_iff (by decide)]

/-- A rate word is the clamped tempo times 2^37 / 10^6, rounded half up and never below the lowest rate: no bit of it
is lost, as 30000 hundredths give less than 2^32. -/
theorem rateOfTempo_toNat (h : Nat) :
    (rateOfTempo h).toNat =
      max 137438954 ((2 * (min 30000 (max 1000 h) * 2 ^ 37) + 1000000) / (2 * 1000000)) := by
  have hhalf : (2 * (min 30000 (max 1000 h) * 2 ^ 37) + 1000000) / (2 * 1000000) =
      (min 30000 (max 1000 h) * 137438953472 + 500000) / 1000000 := by
    rw [← Nat.mul_div_mul_left _ 1000000 two_pos, Nat.mul_add, show 2 * 500000 = 1000000 from rfl,
      show 2 ^ 37 = 137438953472 by norm_num]
  have hclamp : min 30000 (max 1000 h) ≤ 30000 := min_le_left _ _
  rw [rateOfTempo, BitVec.toNat_ofNat, clampNat_eq_min_max (by decide), wMin, hhalf]
  exact Nat.mod_eq_of_lt (by omega)

/-! ### The slope of a glide (R16) -/

/-- Rounding is odd in its numerator: it treats a fall as it treats a rise. -/
theorem roundAway_neg {num : Int} (h : 0 < num) (den : Nat) : roundAway (-num) den = -roundAway num den := by
  unfold roundAway
  rw [if_pos (by omega), if_neg (by omega), neg_neg]

/-- A rise is rounded half up. -/
theorem roundAway_bounds {num : Int} (h : 0 ≤ num) {den : Nat} (hd : 0 < den) :
    2 * (roundAway num den * den) ≤ 2 * num + den ∧ 2 * num < 2 * (roundAway num den * den) + den := by
  have hq : roundAway num den = (2 * num + den) / (2 * den) := if_neg (by omega)
  have hpos : (0 : Int) < 2 * den := by omega
  have hlow := Int.ediv_mul_le (2 * num + den) hpos.ne'
  have hhigh := Int.lt_ediv_add_one_mul_self (2 * num + den) hpos
  rw [← hq] at hlow hhigh
  constructor <;> linarith

/-- The rounded quotient is a nearest one, and of two nearest ones the one further from zero. -/
theorem roundAway_nearest (num : Int) {den : Nat} (hd : 0 < den) :
    2 * (roundAway num den * den - num).natAbs ≤ den ∧
      (2 * (roundAway num den * den - num).natAbs = den → num.natAbs < (roundAway num den * den).natAbs) := by
  rcases le_or_gt 0 num with h | h
  · have := roundAway_bounds h hd
    omega
  · have := roundAway_bounds (num := -num) (by omega) hd
    have hodd := roundAway_neg (num := -num) (by omega) den
    rw [neg_neg] at hodd
    rw [hodd, neg_mul]
    omega

/-! ### The tempo requests (R15 to R17) -/

/-- A glide of no duration sets the tempo. -/
theorem Clock.startGlide_zero (h : Nat) : Clock.startGlide h 0 = Clock.setTempo h := rfl

/-- A glide of a duration is held, and moves nothing else of the clock. -/
theorem Clock.startGlide_pos {duration : Nat} (hd : duration ≠ 0) (h : Nat) (c : Clock) :
    c.startGlide h duration =
      { c with
        ramp := .glide (rateOfTempo h) (roundAway ((rateOfTempo h).toNat - c.rate.toNat) (2 * min duration 60000))
          (2 * min duration 60000) } :=
  if_neg hd

theorem exec_tempoSet (p : Port) (tempo : BitVec 16) {s : State} (h : s.Taking) :
    exec (.tempoSet p tempo) s = .next ((s.modClock (Clock.setTempo tempo.toNat)).reply p
      (Reply.bare (okOrClamped (tempoClamps tempo.toNat)))) :=
  exec_of_taking (body := tempoSetBody tempo) rfl h

theorem exec_tempoGlide (p : Port) (tempo duration : BitVec 16) {s : State} (h : s.Taking) :
    exec (.tempoGlide p tempo duration) s =
      .next ((s.modClock (Clock.startGlide tempo.toNat duration.toNat)).reply p
        (Reply.bare (okOrClamped (tempoClamps tempo.toNat || decide (60000 < duration.toNat))))) :=
  exec_of_taking (body := tempoGlideBody tempo duration) rfl h

theorem exec_tempoGlide_zero (p : Port) (tempo : BitVec 16) {s : State} (h : s.Taking) :
    exec (.tempoGlide p tempo 0) s = exec (.tempoSet p tempo) s := by
  rw [exec_tempoGlide p tempo 0 h, exec_tempoSet p tempo h]
  simp [Clock.startGlide_zero]

theorem exec_tempoGlide_pos (p : Port) (tempo : BitVec 16) {duration : BitVec 16} (hd : duration ≠ 0) {s : State}
    (h : s.Taking) :
    exec (.tempoGlide p tempo duration) s =
      .next ((s.modClock fun c =>
        { c with
          ramp := .glide (rateOfTempo tempo.toNat)
            (roundAway ((rateOfTempo tempo.toNat).toNat - s.clock.rate.toNat) (2 * min duration.toNat 60000))
            (2 * min duration.toNat 60000) }).reply p
        (Reply.bare (if tempo.toNat < 1000 ∨ 30000 < tempo.toNat ∨ 60000 < duration.toNat then .clamped else .ok))) := by
  have hpos : duration.toNat ≠ 0 := fun h0 => hd (BitVec.eq_of_toNat_eq h0)
  rw [exec_tempoGlide p tempo duration h]
  simp [State.modClock, Clock.startGlide_pos hpos, okOrClamped, or_assoc]

theorem exec_tempoCurve (p : Port) (slope curvature n : BitVec 32) {s : State} (h : s.Taking) :
    exec (.tempoCurve p slope curvature n) s =
      if 1 ≤ n.toNat ∧ n.toNat ≤ 240000 then
        .next ((s.modClock fun c => { c with ramp := .curve slope.toInt curvature.toInt n.toNat }).reply p
          (Reply.bare .ok))
      else .next (s.reply p (Reply.bare .range)) := by
  rw [exec_of_taking (body := tempoCurveBody slope curvature n) rfl h, tempoCurveBody]
  simp only [inRange_iff]
  split <;> rfl

/-- Settles O15: the state before the reply is `s` with its clock set to the tempo, whose rate is `rateOfTempo_toNat`. -/
theorem tempoSetMakesTheRateWord : Obligations.TempoSetMakesTheRateWord := by
  intro p tempo s h
  refine ⟨s.modClock (Clock.setTempo tempo.toNat), ?_, rfl, rateOfTempo_toNat tempo.toNat⟩
  rw [exec_tempoSet p tempo h]
  simp only [okOrClamped, tempoClamps_iff]

/-- Settles O16: the slope is `roundAway`'s, which `roundAway_nearest` describes, as a glide that is held has a step. -/
theorem rampRequests : Obligations.RampRequests := by
  intro p s h
  refine ⟨fun tempo => exec_tempoGlide_zero p tempo h, fun tempo duration hd => ?_, fun slope curvature n => ⟨?_, ?_⟩⟩
  · have hpos : duration.toNat ≠ 0 := fun h0 => hd (BitVec.eq_of_toNat_eq h0)
    obtain ⟨hnear, haway⟩ := roundAway_nearest ((rateOfTempo tempo.toNat).toNat - s.clock.rate.toNat)
      (den := 2 * min duration.toNat 60000) (by omega)
    exact ⟨_, _, rfl, hnear, haway, exec_tempoGlide_pos p tempo hd h⟩
  · intro hlow hhigh
    rw [exec_tempoCurve p slope curvature n h, if_pos ⟨hlow, hhigh⟩]
  · intro hout
    have hn : ¬(1 ≤ n.toNat ∧ n.toNat ≤ 240000) := by
      rcases hout with rfl | hhigh
      · decide
      · omega
    rw [exec_tempoCurve p slope curvature n h, if_neg hn]

end Sys2Proof.Machine
end

section
/-! PROOFS. The channel table, chapter 02: a curve taken into its ranges (R30), the release of a FAULTED channel (R33),
and settling by board and kind (R24). -/

namespace Sys2Proof.Machine

/-! ### Channel numbers in a request -/

/-- The byte that names a channel loses no bit of its number. -/
theorem chanByte_toNat (c : ChanId) : (BitVec.ofNat 8 c.val).toNat = c.val := by
  rw [BitVec.toNat_ofNat]
  exact Nat.mod_eq_of_lt (by omega)

/-! ### Knots (R30) -/

theorem knotOfFields_eq (k : KnotFields) :
    knotOfFields k = { pulse := min 2000 (max 5 k.pulse.toNat), flight := min k.flight.toNat 6000 } := by
  rw [knotOfFields, clampNat_eq_min_max (by decide)]

theorem knotClamps_eq_false_iff (k : KnotFields) :
    knotClamps k = false ↔ 5 ≤ k.pulse.toNat ∧ k.pulse.toNat ≤ 2000 ∧ k.flight.toNat ≤ 6000 := by
  simp only [knotClamps, knotOfFields_eq, Bool.or_eq_false_iff, bne_eq_false_iff_eq]
  omega

theorem any_knotClamps_eq_false_iff (knots : Vector KnotFields 8) :
    knots.any knotClamps = false ↔
      ∀ i : Fin 8, 5 ≤ knots[i].pulse.toNat ∧ knots[i].pulse.toNat ≤ 2000 ∧ knots[i].flight.toNat ≤ 6000 := by
  simp only [Vector.any_eq_false, Bool.not_eq_true, knotClamps_eq_false_iff]
  exact ⟨fun h i => h i i.isLt, fun h i hi => h ⟨i, hi⟩⟩

@[simp] theorem okOrClamped_eq_ok_iff (b : Bool) : okOrClamped b = .ok ↔ b = false := by
  cases b <;> simp [okOrClamped]

theorem okOrClamped_cases (b : Bool) : okOrClamped b = .ok ∨ okOrClamped b = .clamped := by
  cases b <;> simp [okOrClamped]

/-! ### The two requests -/

theorem exec_chanCurve (p : Port) (c : ChanId) (knots : Vector KnotFields 8) {s : State} (h : s.Taking) :
    exec (.chanCurve p (BitVec.ofNat 8 c.val) knots) s =
      if s.channelBusy c then .next (s.reply p (Reply.bare .busy))
      else .next ((s.modChan c fun ch => { ch with knots := knots.map knotOfFields }).reply p
        (Reply.bare (okOrClamped (knots.any knotClamps)))) := by
  rw [exec_of_taking (body := chanCurveBody _ knots) rfl h, chanCurveBody, dif_pos ((chanByte_toNat c).trans_lt c.isLt)]
  simp only [chanByte_toNat, Fin.eta]
  split <;> rfl

theorem exec_chanCurve_outOfRange (p : Port) {n : Byte} (hn : 127 < n.toNat) (knots : Vector KnotFields 8) {s : State}
    (h : s.Taking) : exec (.chanCurve p n knots) s = .next (s.reply p (Reply.bare .range)) := by
  rw [exec_of_taking (body := chanCurveBody n knots) rfl h, chanCurveBody, dif_neg (by omega)]
  rfl

theorem exec_chanRelease (p : Port) (c : ChanId) {s : State} (h : s.Taking) :
    exec (.chanRelease p (BitVec.ofNat 8 c.val)) s =
      if (s.chan c).presence = .faulted then
        .next ((s.modChan c fun ch => Channel.settle (s.boardEntry c) (outputOf c) { ch with misses := 0 }).reply p
          (Reply.bare .ok))
      else .next (s.reply p (Reply.bare .state)) := by
  rw [exec_of_taking (body := chanReleaseBody _) rfl h, chanReleaseBody, dif_pos ((chanByte_toNat c).trans_lt c.isLt)]
  simp only [chanByte_toNat, Fin.eta]
  split <;> rfl

theorem exec_chanRelease_outOfRange (p : Port) {n : Byte} (hn : 127 < n.toNat) {s : State} (h : s.Taking) :
    exec (.chanRelease p n) s = .next (s.reply p (Reply.bare .range)) := by
  rw [exec_of_taking (body := chanReleaseBody n) rfl h, chanReleaseBody, dif_neg (by omega)]
  rfl

/-! ### Settling (R24) -/

theorem Channel.settle_noBoard (o : Fin 8) (ch : Channel) :
    ch.settle none o = { ch with presence := .absent, cause := none } := rfl

theorem Channel.settle_noKind {ch : Channel} (hk : ch.kind = none) (mask : Byte) (o : Fin 8) :
    ch.settle (some mask) o = { ch with presence := .unconfigured, cause := none } := by
  simp only [Channel.settle, hk]

theorem Channel.settle_strike {ch : Channel} (hk : ch.kind = some .strike) (mask : Byte) (o : Fin 8) :
    ch.settle (some mask) o = { ch with presence := .ready, cause := none } := by
  simp only [Channel.settle, hk]

theorem Channel.settle_hold {ch : Channel} (hk : ch.kind = some .hold) (mask : Byte) (o : Fin 8) :
    ch.settle (some mask) o =
      if mask.getLsbD o.val then { ch with presence := .ready, cause := none }
      else { ch with presence := .unconfigured, cause := none, kind := none } := by
  simp only [Channel.settle, hk]

/-- Settles O23: the two requests by the branches of their blocks, and settling by board and kind. -/
theorem curveAndReleaseRequests : Obligations.CurveAndReleaseRequests := by
  refine ⟨fun p c s h => ⟨fun knots hbusy => ?_, fun knots hbusy => ?_, fun n knots hn => ?_, fun hf => ?_,
    fun hf => ?_⟩, fun ch o => ⟨Channel.settle_noBoard o ch, fun mask => ⟨fun hk => ?_, fun hk hm => ?_, ?_⟩⟩⟩
  · refine ⟨okOrClamped (knots.any knotClamps), ?_, ?_, okOrClamped_cases _⟩
    · rw [exec_chanCurve p c knots h, if_neg (ne_true_of_eq_false hbusy), funext knotOfFields_eq]
    · rw [okOrClamped_eq_ok_iff, any_knotClamps_eq_false_iff]
  · rw [exec_chanCurve p c knots h, if_pos hbusy]
  · exact ⟨exec_chanCurve_outOfRange p hn knots h, exec_chanRelease_outOfRange p hn h⟩
  · rw [exec_chanRelease p c h, if_pos hf]
  · rw [exec_chanRelease p c h, if_neg hf]
  · exact Channel.settle_noKind hk mask o
  · rw [Channel.settle_hold hk, if_neg (ne_true_of_eq_false hm)]
  · rintro (hk | ⟨hk, hm⟩)
    · exact Channel.settle_strike hk mask o
    · rw [Channel.settle_hold hk, if_pos hm]

end Sys2Proof.Machine
end

section
/-! PROOFS. Phrase cells, chapter 03: the two requests on a region (R42, R43), and the kind and the fields that the
eight bytes of a cell spell (R44, R200, R201). -/

namespace Sys2Proof.Machine

/-! ### The two requests (R42, R43) -/

/-- Byte `i` of a run read from `a` on stands at `a + i`. -/
theorem readBytes_getElem? (m : List Host.Cell) (a : Nat) {n i : Nat} (hi : i < n) :
    (readBytes m a n)[i]? = some (readByte m (a + i)) := by
  induction n generalizing a i with
  | zero => omega
  | succ n ih =>
    cases i with
    | zero => rfl
    | succ i => rw [readBytes, List.getElem?_cons_succ, ih (a + 1) (by omega), Nat.add_right_comm, Nat.add_assoc]

/-- The two checks of R42 are one condition on the start address and on the number of bytes carried. -/
theorem exec_cellsWrite (p : Port) (start : BitVec 16) (data : List Byte) {s : State} (h : s.Taking) :
    exec (.cellsWrite p start data) s =
      if data.length % 8 = 0 ∧ 1 ≤ data.length / 8 ∧ data.length / 8 ≤ 30 ∧ start.toNat + data.length / 8 ≤ 2048 then
        .next ((s.modPort p fun r => { r with mem := writeBytes r.mem (8 * start.toNat) data }).reply p (Reply.bare .ok))
      else .next (s.reply p (Reply.bare .range)) := by
  rw [exec_of_taking (body := cellsWriteBody p start data) rfl h, cellsWriteBody]
  simp only [Bool.or_eq_true, Bool.not_eq_true', decide_eq_true_eq, ← Bool.not_eq_true, inRange_iff]
  split
  · rw [if_neg (by omega)]
    rfl
  · split
    · rw [if_neg (by omega)]
      rfl
    · rw [if_pos (by omega)]
      rfl

theorem exec_cellsRead (p : Port) (start : BitVec 16) (count : Byte) {s : State} (h : s.Taking) :
    exec (.cellsRead p start count) s =
      if 1 ≤ count.toNat ∧ count.toNat ≤ 31 ∧ start.toNat + count.toNat ≤ 2048 then
        .next (s.reply p ⟨.ok, readBytes (s.port p).mem (8 * start.toNat) (8 * count.toNat)⟩)
      else .next (s.reply p (Reply.bare .range)) := by
  rw [exec_of_taking (body := cellsReadBody p start count) rfl h, cellsReadBody]
  simp only [Bool.or_eq_true, Bool.not_eq_true', decide_eq_true_eq, ← Bool.not_eq_true, inRange_iff]
  split
  · rw [if_neg (by omega)]
    rfl
  · rw [if_pos (by omega)]
    rfl

/-! ### Fields of several bytes (R197) -/

@[simp] theorem byteAt_cons_zero (b : Byte) (l : List Byte) : byteAt (b :: l) 0 = b := rfl

@[simp] theorem byteAt_cons_succ (b : Byte) (l : List Byte) (i : Nat) : byteAt (b :: l) (i + 1) = byteAt l i := rfl

/-- The left of two joined fields is the more significant. -/
theorem toNat_append_eq_add {m n : Nat} (x : BitVec m) (y : BitVec n) :
    (x ++ y).toNat = x.toNat * 2 ^ n + y.toNat := by
  rw [BitVec.toNat_append, ← Nat.shiftLeft_add_eq_or_of_lt y.isLt, Nat.shiftLeft_eq]

theorem be16_toNat (l : List Byte) (i : Nat) :
    (be16 l i).toNat = (byteAt l i).toNat * 2 ^ 8 + (byteAt l (i + 1)).toNat :=
  toNat_append_eq_add _ _

theorem be32_toNat (l : List Byte) (i : Nat) :
    (be32 l i).toNat = (byteAt l i).toNat * 2 ^ 24 + (byteAt l (i + 1)).toNat * 2 ^ 16 +
      (byteAt l (i + 2)).toNat * 2 ^ 8 + (byteAt l (i + 3)).toNat := by
  simp only [be32, toNat_append_eq_add]
  omega

/-! ### The cell that eight bytes spell (R44, R200, R201) -/

/-- The offset or the length of a cell: bits 27 to 0 of its last four bytes (R200). -/
def offsetField (b4 b5 b6 b7 : Byte) : Nat :=
  b4.toNat % 16 * 2 ^ 24 + b5.toNat * 2 ^ 16 + b6.toNat * 2 ^ 8 + b7.toNat

section Kinds

variable {b0 b1 b2 b3 b4 b5 b6 b7 : Byte}

/-- The four bits that R200 disregards are those the model takes off by its remainder. -/
theorem be32_mod_eq_offsetField :
    (be32 [b0, b1, b2, b3, b4, b5, b6, b7] 4).toNat % 268435456 = offsetField b4 b5 b6 b7 := by
  rw [be32_toNat]
  simp only [byteAt_cons_zero, byteAt_cons_succ, offsetField]
  omega

theorem decodeCell_end (h : b0.toNat % 16 = 0) : decodeCell [b0, b1, b2, b3, b4, b5, b6, b7] = .endCell := by
  simp [decodeCell, h]

theorem decodeCell_head (h : b0.toNat % 16 = 1) :
    decodeCell [b0, b1, b2, b3, b4, b5, b6, b7] =
      .head { clock := if b0.getLsbD 4 then .free else .beat, overhang := b0.getLsbD 5,
              stopOnFault := b0.getLsbD 6, repeats := b1.toNat, length := offsetField b4 b5 b6 b7 } := by
  simp [decodeCell, be32_mod_eq_offsetField, h]

theorem decodeCell_stroke (h : b0.toNat % 16 = 2) :
    decodeCell [b0, b1, b2, b3, b4, b5, b6, b7] =
      .stroke (chanField b1) (b2.toNat % 128) (b0.getLsbD 4) (b0.getLsbD 5) (offsetField b4 b5 b6 b7) := by
  simp [decodeCell, be32_mod_eq_offsetField, h]

theorem decodeCell_hold (h : b0.toNat % 16 = 3) :
    decodeCell [b0, b1, b2, b3, b4, b5, b6, b7] =
      .hold (chanField b1) (b0.getLsbD 5) b2.toNat (b0.getLsbD 4) (offsetField b4 b5 b6 b7) := by
  simp [decodeCell, be32_mod_eq_offsetField, h]

/-- A LINK's target is the low eleven bits of its two bytes, so three bits of the first of them. -/
theorem decodeCell_link (h : b0.toNat % 16 = 4) :
    decodeCell [b0, b1, b2, b3, b4, b5, b6, b7] = .link (b2.toNat % 8 * 2 ^ 8 + b3.toNat) := by
  simp only [decodeCell, be16_toNat, byteAt_cons_zero, byteAt_cons_succ, h, Cell.link.injEq]
  omega

theorem decodeCell_setLevel (h : b0.toNat % 16 = 5) :
    decodeCell [b0, b1, b2, b3, b4, b5, b6, b7] = .setLevel b2.toNat (offsetField b4 b5 b6 b7) := by
  simp [decodeCell, be32_mod_eq_offsetField, h]

/-- A SET_TEMPO's target is the low fifteen bits of its two bytes; the flags' four bits lead its duration. -/
theorem decodeCell_setTempo (h : b0.toNat % 16 = 6) :
    decodeCell [b0, b1, b2, b3, b4, b5, b6, b7] =
      .setTempo (b1.toNat % 128 * 2 ^ 8 + b2.toNat) (b0.toNat / 16 * 2 ^ 8 + b3.toNat)
        (offsetField b4 b5 b6 b7) := by
  simp only [decodeCell, be32_mod_eq_offsetField, be16_toNat, byteAt_cons_zero, byteAt_cons_succ, h,
    Cell.setTempo.injEq, and_true]
  omega

theorem decodeCell_rest (h : b0.toNat % 16 = 7) :
    decodeCell [b0, b1, b2, b3, b4, b5, b6, b7] = .rest (b0.getLsbD 4) (offsetField b4 b5 b6 b7) := by
  simp [decodeCell, be32_mod_eq_offsetField, h]

theorem decodeCell_undefined (h : 8 ≤ b0.toNat % 16) :
    decodeCell [b0, b1, b2, b3, b4, b5, b6, b7] = .undefined := by
  simp only [decodeCell, byteAt_cons_zero]
  split
  case h_9 => rfl
  all_goals omega

end Kinds

/-- Settles O25: the requests by the branches of their blocks, with the region's bytes by `readByte_writeBytes` and
`readBytes_getElem?`, and the bytes of a cell by the equation of each kind. -/
theorem cellsAreWrittenAndRead : Obligations.CellsAreWrittenAndRead := by
  refine ⟨fun p start s h => ⟨fun data n hn hn30 hlen hend hwf => ?_, fun count hc hc31 hend => ?_, fun data hbad => ?_,
    fun count hbad => ?_⟩, ?_⟩
  · refine ⟨s.modPort p fun r => { r with mem := writeBytes r.mem (8 * start.toNat) data }, ?_, ?_, fun a => ?_⟩
    · rw [exec_cellsWrite p start data h, if_pos (by omega)]
    · rw [State.modPort_port_same]
      rfl
    · rw [State.modPort_port_same, readByte_writeBytes hwf, hlen]
  · refine ⟨_, by rw [exec_cellsRead p start count h, if_pos ⟨hc, hc31, hend⟩], readBytes_length _ _ _, fun i hi => ?_⟩
    rw [readBytes_length] at hi
    exact readBytes_getElem? _ _ hi
  · rw [exec_cellsWrite p start data h, if_neg (by omega)]
  · have hout : ¬(1 ≤ count.toNat ∧ count.toNat ≤ 31 ∧ start.toNat + count.toNat ≤ 2048) := by
      rcases hbad with rfl | hhigh
      · simp
      · omega
    rw [exec_cellsRead p start count h, if_neg hout]
  · rintro b0 b1 b2 b3 b4 b5 b6 b7 _ _ rfl rfl
    exact ⟨decodeCell_end, decodeCell_head, fun hk => ⟨chanField b1, rfl, decodeCell_stroke hk⟩,
      fun hk => ⟨chanField b1, rfl, decodeCell_hold hk⟩, decodeCell_link, decodeCell_setLevel, decodeCell_setTempo,
      decodeCell_rest, decodeCell_undefined⟩

end Sys2Proof.Machine
end

section
/-! PROOFS. Stroke arithmetic, chapter 05: what a measured flight teaches the two knots that bracket its velocity
(R92 to R94). -/

namespace Sys2Proof.Machine

/-! ### One knot moved by a share (R94) -/

theorem clampFlight_eq_min_max (x : Int) : clampFlight x = (min 6000 (max 0 x)).toNat := by
  unfold clampFlight
  split <;> omega

section MoveKnot

variable (ch : Channel) {k : Nat} (share : Int)

theorem Channel.moveKnot_eq (hk : k < 8) :
    ch.moveKnot k share = { ch with
      knots := ch.knots.set k { ch.knots[k] with flight := clampFlight ((ch.knots[k].flight : Int) + share) } hk } :=
  dif_pos hk

/-- Moving a knot changes nothing of the channel but its knots. -/
theorem Channel.moveKnot_frame (k : Nat) :
    ch.moveKnot k share = { ch with knots := (ch.moveKnot k share).knots } := by
  unfold Channel.moveKnot
  split <;> rfl

theorem Channel.moveKnot_knots_same {j : Fin 8} (hj : j.val = k) :
    (ch.moveKnot k share).knots[j].flight = (min 6000 (max 0 ((ch.knots[j].flight : Int) + share))).toNat := by
  subst hj
  rw [ch.moveKnot_eq share j.isLt, ← clampFlight_eq_min_max]
  simp

theorem Channel.moveKnot_knots_ne {j : Fin 8} (hj : j.val ≠ k) :
    (ch.moveKnot k share).knots[j] = ch.knots[j] := by
  unfold Channel.moveKnot
  split
  · simp [Vector.getElem_set_ne, hj.symm]
  · rfl

end MoveKnot

/-! ### Adaptation (R92, R93) -/

section Adapt

variable {limit measured : Nat} {slot : FlightSlot} {ch : Channel}

theorem Channel.adapt_outlier (hd : slot.degraded = false)
    (hout : limit < ((measured : Int) - slot.fig.flight).natAbs) :
    ch.adapt limit slot measured = { ch with outliers := satSucc ch.outliers 65535 } := by
  simp only [Channel.adapt, hd, Bool.false_eq_true, if_false, if_pos hout]

theorem Channel.adapt_within (hd : slot.degraded = false)
    (hin : ((measured : Int) - slot.fig.flight).natAbs ≤ limit) (ha : ch.scalars.adaptShift ≠ 0) :
    ch.adapt limit slot measured =
      (ch.moveKnot slot.fig.seg (lowerShare (correction (measured - slot.fig.flight) ch.scalars.adaptShift)
        slot.fig.off)).moveKnot (slot.fig.seg + 1)
          (correction (measured - slot.fig.flight) ch.scalars.adaptShift -
            lowerShare (correction (measured - slot.fig.flight) ch.scalars.adaptShift) slot.fig.off) := by
  simp only [Channel.adapt, hd, Bool.false_eq_true, if_false, if_neg hin.not_gt, if_neg ha]

end Adapt

/-- Settles O46: the upper share is what the lower one leaves of the correction, and the two moves are of different
knots, so each knot is what its own move makes of it. -/
theorem contactsTeachTheKnots : Obligations.ContactsTeachTheKnots := by
  refine fun limit measured slot ch hd _ _ => ⟨fun hout => Channel.adapt_outlier hd hout, fun hin ha => ?_⟩
  rw [Channel.adapt_within hd hin ha]
  generalize hdelta : correction (measured - slot.fig.flight) ch.scalars.adaptShift = delta
  generalize hlow : lowerShare delta slot.fig.off = low
  have hsum : low + (delta - low) = delta := by omega
  refine ⟨low, delta - low, hsum.trans hdelta.symm, by rw [hsum]; exact hlow.symm, ?_, fun k hseg hnext => ?_,
    fun k hseg => ?_, fun k hnext => ?_⟩
  · rw [Channel.moveKnot_frame, Channel.moveKnot_frame ch]
  · rw [Channel.moveKnot_knots_ne _ _ hnext, Channel.moveKnot_knots_ne _ _ hseg]
  · rw [Channel.moveKnot_knots_ne _ _ (by omega), Channel.moveKnot_knots_same _ _ hseg]
  · rw [Channel.moveKnot_knots_same _ _ hnext, Channel.moveKnot_knots_ne _ _ (by omega)]

end Sys2Proof.Machine
end

section
/-! PROOFS. The drive chains, chapter 08: what placing four PINGs makes of a chain at rest (R138, R147), and the request
CHAIN_SCAN (R149). -/

namespace Sys2Proof.Machine

theorem plus_plus (t : StageTime) (m n : Nat) : plus (plus t m) n = plus t (m + n) := by
  simp only [plus, BitVec.ofNat_add, BitVec.add_assoc]

/-- A change of a chain is known by what it makes of the chain's record. -/
theorem State.modChain_congr {s : State} {d : ChainId} {f g : Chain → Chain} (h : f (s.chain d) = g (s.chain d)) :
    s.modChain d f = s.modChain d g := by
  simp only [State.modChain]
  exact congrArg (fun ch => { s with chains := s.chains.set d.val ch d.isLt }) h

/-! ### Placing frames (R138) -/

section Place

variable {ch : Chain} (now : StageTime) (tf : Nat) (f : DriveFrame)

theorem Chain.place_of_not_sending (h : ch.sending = none) :
    ch.place now tf f = { ch with sending := some (f, now), busyUntil := some (plus now tf) } := by
  simp only [Chain.place, h]

theorem Chain.place_of_sending {g : DriveFrame × StageTime} (h : ch.sending = some g) :
    ch.place now tf f =
      { ch with queue := ch.queue ++ [f], busyUntil := some (plus (ch.busyUntil.getD now) tf) } := by
  simp only [Chain.place, h]

/-- A scan's four PINGs on a chain at rest: PING 0 begins at once, the others wait, and the transmitter is busy for
four frame times. -/
theorem Chain.startScan_of_atRest (kind : ScanKind) (hq : ch.queue = []) (hs : ch.sending = none) :
    ch.startScan now tf kind false =
      { ch with scan := some ⟨now, kind, Vector.replicate 4 none, Vector.replicate 4 true⟩,
                sending := some (.ping 0, now), queue := [.ping 1, .ping 2, .ping 3],
                busyUntil := some (plus now (4 * tf)) } := by
  have hbusy : plus (plus (plus (plus now tf) tf) tf) tf = plus now (4 * tf) := by
    rw [plus_plus, plus_plus, plus_plus]
    congr 1
    omega
  rw [← hbusy]
  simp [Chain.startScan, Chain.place_of_not_sending, Chain.place_of_sending, hs, hq]

end Place

/-! ### A chain that takes no scan (R149) -/

theorem mem_chainChannels {c : ChanId} {d : ChainId} : c ∈ chainChannels d ↔ chainOf c = d := by
  simp [chainChannels]

@[simp] theorem Chain.idle_iff {ch : Chain} : ch.idle = true ↔ ch.queue = [] ∧ ch.sending = none := by
  simp [Chain.idle]

/-- The check of CHAIN_SCAN that is refused with BUSY. -/
def State.scanBusy (s : State) (d : ChainId) : Bool :=
  s.scanning d || (chainChannels d).any s.channelBusy || !(s.chain d).idle

theorem State.scanBusy_iff {s : State} {d : ChainId} :
    s.scanBusy d = true ↔ (s.chain d).scan ≠ none ∨ (∃ c, chainOf c = d ∧ s.channelBusy c = true) ∨
      (s.chain d).queue ≠ [] ∨ (s.chain d).sending ≠ none := by
  have hrest : (!(s.chain d).idle) = true ↔ (s.chain d).queue ≠ [] ∨ (s.chain d).sending ≠ none := by
    rw [Bool.not_eq_true', ← Bool.not_eq_true, Chain.idle_iff, not_and_or]
  have hscan : s.scanning d = true ↔ (s.chain d).scan ≠ none := Option.isSome_iff_ne_none
  simp only [State.scanBusy, Bool.or_eq_true, hscan, hrest, List.any_eq_true, mem_chainChannels, or_assoc]

/-! ### The request -/

/-- The byte that names a chain loses no bit of its number. -/
theorem chainByte_toNat (d : ChainId) : (BitVec.ofNat 8 d.val).toNat = d.val := by
  rw [BitVec.toNat_ofNat]
  exact Nat.mod_eq_of_lt (by omega)

theorem exec_chainScan (p : Port) (d : ChainId) {s : State} (h : s.Taking) :
    exec (.chainScan p (BitVec.ofNat 8 d.val)) s =
      if s.safeLow then .next (s.reply p (Reply.bare .safe))
      else if s.scanBusy d then .next (s.reply p (Reply.bare .busy))
      else .next ((s.modChain d (Chain.startScan s.now s.settings.frameTime .request s.safeLow)).reply p
        (Reply.bare .ok)) := by
  rw [exec_of_taking (body := chainScanBody _) rfl h, chainScanBody, dif_pos ((chainByte_toNat d).trans_lt d.isLt)]
  simp only [chainByte_toNat, Fin.eta]
  split
  · rfl
  · rw [State.scanBusy]
    split <;> rfl

theorem exec_chainScan_outOfRange (p : Port) {n : Byte} (hn : 3 < n.toNat) {s : State} (h : s.Taking) :
    exec (.chainScan p n) s = .next (s.reply p (Reply.bare .range)) := by
  rw [exec_of_taking (body := chainScanBody n) rfl h, chainScanBody, dif_neg (by omega)]
  rfl

/-- Settles O37: the checks in the order of `exec_chainScan`; one that passes them all leaves a chain at rest, on which
the scan starts as `Chain.startScan_of_atRest` says. -/
theorem chainScanPingsTheBoards : Obligations.ChainScanPingsTheBoards := by
  refine fun p d s h => ⟨fun n hn => exec_chainScan_outOfRange p hn h, fun hsafe => ?_, fun hsafe hbusy => ?_,
    fun hsafe hscan hchan hq hs => ?_⟩
  · rw [exec_chainScan p d h, if_pos hsafe]
  · rw [exec_chainScan p d h, if_neg (ne_true_of_eq_false hsafe), if_pos (State.scanBusy_iff.mpr hbusy)]
  · have hfree : ¬ s.scanBusy d = true := by
      rw [State.scanBusy_iff]
      rintro (hne | ⟨c, hc, hb⟩ | hne | hne)
      · exact hne hscan
      · exact ne_true_of_eq_false (hchan c hc) hb
      · exact hne hq
      · exact hne hs
    rw [exec_chainScan p d h, if_neg (ne_true_of_eq_false hsafe), if_neg hfree, hsafe]
    congr 2
    exact State.modChain_congr (Chain.startScan_of_atRest _ _ _ hq hs)

end Sys2Proof.Machine
end

section
/-! PROOFS. The notice unit, chapter 10: the requests on its masks and latches (R179, R180), a raised source (R176, R178)
and the ATN line (R182). -/

namespace Sys2Proof.Machine

/-! ### Source selections (R179, R198) -/

theorem selectionOf_of_le {x : BitVec 16} (hx : x.toNat ≤ 16383) : selectionOf x = some (x.setWidth 14) :=
  if_pos (by omega)

theorem selectionOf_of_lt {x : BitVec 16} (hx : 16383 < x.toNat) : selectionOf x = none :=
  if_neg (by omega)

/-- BEAT's bit of a selection is bit 8 of the word it was sent as. -/
theorem getLsbD_setWidth_beat (x : BitVec 16) : (x.setWidth 14).getLsbD Source.beat.num = x.getLsbD 8 := by
  simp [Source.num]

/-! ### What the requests do to the unit (R178 to R180) -/

/-- Keeping the latches of a selection keeps the window of a selected BEAT. -/
theorem NoticeUnit.keepLatches_setWidth (x : BitVec 16) (u : NoticeUnit) :
    u.keepLatches (x.setWidth 14) =
      { u with latches := u.latches &&& x.setWidth 14,
               beatWindow := if x.getLsbD 8 then u.beatWindow else none } := by
  rw [NoticeUnit.keepLatches, getLsbD_setWidth_beat]

/-- Keeping the latches outside a selection takes the window of a selected BEAT away. -/
theorem NoticeUnit.keepLatches_not_setWidth (x : BitVec 16) (u : NoticeUnit) :
    u.keepLatches (~~~(x.setWidth 14)) =
      { u with latches := u.latches &&& ~~~(x.setWidth 14),
               beatWindow := if x.getLsbD 8 then none else u.beatWindow } := by
  have hbeat : (~~~(x.setWidth 14)).getLsbD Source.beat.num = !x.getLsbD 8 := by
    rw [BitVec.getLsbD_not, getLsbD_setWidth_beat]
    rfl
  rw [NoticeUnit.keepLatches, hbeat]
  cases x.getLsbD 8 <;> rfl

theorem NoticeUnit.force_setWidth (now : StageTime) (x : BitVec 16) (u : NoticeUnit) :
    u.force now (x.setWidth 14) =
      { u with latches := u.latches ||| (x.setWidth 14 &&& u.enables),
               beatWindow := if x.getLsbD 8 && u.enables.getLsbD 8 then some (plus now 5000) else u.beatWindow } := by
  rw [NoticeUnit.force, BitVec.getLsbD_and, getLsbD_setWidth_beat]
  rfl

/-! ### The requests -/

theorem exec_noteMask (p : Port) {x : BitVec 16} (hx : x.toNat ≤ 16383) {s : State} (h : s.Taking) :
    exec (.noteMask p x) s = .next ((s.modUnit p fun u =>
      ({ u with enables := x.setWidth 14 } : NoticeUnit).keepLatches (x.setWidth 14)).reply p (Reply.bare .ok)) := by
  rw [exec_of_taking (body := noteMaskBody p x) rfl h, noteMaskBody, selectionOf_of_le hx]
  rfl

theorem exec_noteClear (p : Port) {x : BitVec 16} (hx : x.toNat ≤ 16383) {s : State} (h : s.Taking) :
    exec (.noteClear p x) s =
      .next ((s.modUnit p (NoticeUnit.keepLatches (~~~(x.setWidth 14)))).reply p (Reply.bare .ok)) := by
  rw [exec_of_taking (body := noteClearBody p x) rfl h, noteClearBody, selectionOf_of_le hx]
  rfl

theorem exec_noteForce (p : Port) {x : BitVec 16} (hx : x.toNat ≤ 16383) {s : State} (h : s.Taking) :
    exec (.noteForce p x) s =
      .next ((s.modUnit p (NoticeUnit.force s.now (x.setWidth 14))).reply p (Reply.bare .ok)) := by
  rw [exec_of_taking (body := noteForceBody p x) rfl h, noteForceBody, selectionOf_of_le hx]
  rfl

/-- A request whose block answers RANGE leaves nothing but that reply. -/
theorem exec_of_refused {i : Instr} {p : Port} {body : Body} {s : State} {code : ReplyCode}
    (he : exec i s = .next (takeRequest p body s)) (h : s.Taking) (hb : body s = refuse code s) :
    exec i s = .next (s.reply p (Reply.bare code)) := by
  rw [exec_of_taking he h, hb]
  rfl

theorem exec_noteSelection_outOfRange (p : Port) {x : BitVec 16} (hx : 16383 < x.toNat) {s : State} (h : s.Taking) :
    exec (.noteMask p x) s = .next (s.reply p (Reply.bare .range)) ∧
      exec (.noteClear p x) s = .next (s.reply p (Reply.bare .range)) ∧
      exec (.noteForce p x) s = .next (s.reply p (Reply.bare .range)) := by
  refine ⟨exec_of_refused (body := noteMaskBody p x) rfl h ?_, exec_of_refused (body := noteClearBody p x) rfl h ?_,
    exec_of_refused (body := noteForceBody p x) rfl h ?_⟩
  · rw [noteMaskBody, selectionOf_of_lt hx]
  · rw [noteClearBody, selectionOf_of_lt hx]
  · rw [noteForceBody, selectionOf_of_lt hx]

theorem exec_noteEdge (p : Port) (x : Byte) {s : State} (h : s.Taking) :
    exec (.noteEdge p x) s =
      if x.toNat < 16 then
        .next ((s.modUnit p fun u => { u with falling := x.setWidth 4 }).reply p (Reply.bare .ok))
      else .next (s.reply p (Reply.bare .range)) := by
  rw [exec_of_taking (body := noteEdgeBody p x) rfl h, noteEdgeBody]
  split <;> rfl

/-! ### A raised source (R176, R178) -/

theorem NoticeUnit.raise_of_disabled {u : NoticeUnit} {src : Source} (h : u.enables.getLsbD src.num = false)
    (now : StageTime) : u.raise now src = u :=
  if_neg (ne_true_of_eq_false h)

theorem NoticeUnit.raise_of_enabled {u : NoticeUnit} {src : Source} (h : u.enables.getLsbD src.num = true)
    (now : StageTime) :
    u.raise now src =
      { u with latches := u.latches ||| BitVec.twoPow 14 src.num,
               beatWindow := if src = .beat then some (now + 5000) else u.beatWindow } :=
  if_pos h

/-! ### The ATN line (R182) -/

/-- A bit of the latches without BEAT's is that of another source's latch. -/
theorem NoticeUnit.getLsbD_latches_and_not_beat (u : NoticeUnit) (i : Nat) :
    (u.latches &&& ~~~Source.beat.bit).getLsbD i = true ↔ i < 14 ∧ i ≠ 8 ∧ u.latches.getLsbD i = true := by
  have hbit : Source.beat.bit.getLsbD i = true ↔ i = 8 := by
    rw [Source.bit, BitVec.getLsbD_twoPow]
    simp [Source.num, eq_comm]
  rw [BitVec.getLsbD_and, BitVec.getLsbD_not, Bool.and_eq_true, Bool.and_eq_true, decide_eq_true_eq,
    Bool.not_eq_true', ← Bool.not_eq_true, hbit]
  tauto

theorem bitVec_ne_zero_iff {w : Nat} (v : BitVec w) : v ≠ 0 ↔ ∃ i : Nat, i < w ∧ v.getLsbD i = true := by
  simp [BitVec.eq_of_getLsbD_eq_iff]

theorem NoticeUnit.atn_iff (u : NoticeUnit) :
    u.atn = true ↔ (∃ i : Nat, i < 14 ∧ i ≠ 8 ∧ u.latches.getLsbD i = true) ∨
      u.latches.getLsbD 8 = true ∧ u.beatWindow ≠ none := by
  have hrest : ((u.latches &&& ~~~Source.beat.bit) != 0) = true ↔
      ∃ i : Nat, i < 14 ∧ i ≠ 8 ∧ u.latches.getLsbD i = true := by
    rw [bne_iff_ne, bitVec_ne_zero_iff]
    simp only [u.getLsbD_latches_and_not_beat, and_self_left]
  rw [NoticeUnit.atn, Bool.or_eq_true, Bool.and_eq_true, hrest, Option.isSome_iff_ne_none]
  rfl

/-- Settles O50: each request's selection is the word's low 14 bits, what it does to the unit is its `_setWidth` lemma,
and a latch counts for ATN as `NoticeUnit.atn_iff` says. -/
theorem noteRequestsActOnTheUnit : Obligations.NoteRequestsActOnTheUnit := by
  refine ⟨fun p s h => ⟨fun x hx => ⟨?_, ?_, ?_⟩, fun x hx => exec_noteSelection_outOfRange p hx h,
    fun x => ⟨fun hx => ?_, fun hx => ?_⟩⟩,
    fun now src u => ⟨fun hoff => NoticeUnit.raise_of_disabled hoff now,
      fun hon => NoticeUnit.raise_of_enabled hon now, u.atn_iff⟩⟩
  · rw [exec_noteMask p hx h]
    simp only [NoticeUnit.keepLatches_setWidth]
  · rw [exec_noteClear p hx h, funext (NoticeUnit.keepLatches_not_setWidth x)]
  · rw [exec_noteForce p hx h, funext (NoticeUnit.force_setWidth s.now x)]
  · rw [exec_noteEdge p x h, if_pos (by omega)]
  · rw [exec_noteEdge p x h, if_neg (by omega)]

end Sys2Proof.Machine
end

section
/-! PROOFS. What a step can do to the part, said once: a run of moves, each of one block of State and within what the
manual says of that block. An invariant of every step is then proved move by move (O51 to O59). -/

namespace Sys2Proof.Machine

/-! ### What a move keeps of a port, the clock, a channel and a chain -/

/-- A region in canonical form within its 2048 cells (R41). -/
def RegionOk (m : List Host.Cell) : Prop := Memory.wf m = true ∧ ∀ x ∈ m, x.1 < 16384

/-- Every latch that is set is of an enabled source (R176). -/
def NoticeUnit.LatchesOk (u : NoticeUnit) : Prop := ∀ i, u.latches.getLsbD i = true → u.enables.getLsbD i = true

/-- A change of a port that keeps what the manual says of its memory, lists, current phrase and latches. -/
structure PortRec.Keeps (r r' : PortRec) : Prop where
  region : RegionOk r.mem → RegionOk r'.mem
  fits : r.Fits → r'.Fits
  reading : r.reader.readingCount ≤ 1 → r'.reader.readingCount ≤ 1
  latches : r.unit.LatchesOk → r'.unit.LatchesOk

/-- A change of the clock that keeps its rate, its meter and the length of its cue list legal. -/
structure Clock.Keeps (c c' : Clock) : Prop where
  rate : rateInRange c.rate ∧ c.ramp.targetInRange → rateInRange c'.rate ∧ c'.ramp.targetInRange
  meter : meterInRange c.meter ∧ (∀ m, c.pendingMeter = some m → meterInRange m) ∧ c.beat < c.meter →
    meterInRange c'.meter ∧ (∀ m, c'.pendingMeter = some m → meterInRange m) ∧ c'.beat < c'.meter
  cues : c.cues.length ≤ 4 → c'.cues.length ≤ 4

/-- Every flight knot of a channel lies within 6000 pu (R30). -/
def Channel.KnotsOk (ch : Channel) : Prop := ∀ k : Fin 8, ch.knots[k].flight ≤ 6000

/-- The fault cause is present exactly while the channel is FAULTED (R23). -/
def Channel.CauseOk (ch : Channel) : Prop := ch.presence = .faulted ↔ ch.cause.isSome = true

/-- An occupied slot is of a STRIKE channel (R34). -/
def Channel.SlotOk (ch : Channel) : Prop := ch.slot.isSome = true → ch.kind = some .strike

/-- A change of a channel that keeps its heat, knots, cause and slot legal. -/
structure Channel.Keeps (ch ch' : Channel) : Prop where
  heat : ch.heat ≤ ch.scalars.heatLimit → ch'.heat ≤ ch'.scalars.heatLimit
  knots : ch.KnotsOk → ch'.KnotsOk
  cause : ch.CauseOk → ch'.CauseOk
  slot : ch.SlotOk → ch'.SlotOk

/-- A change of a channel that fills no slot with new owners and lifts no hold. -/
structure Channel.Quiet (ch ch' : Channel) : Prop extends Channel.Keeps ch ch' where
  owners : ∀ new, ch'.slot = some new → ∃ old, ch.slot = some old ∧ new.owners.length ≤ old.owners.length
  hold : ch.hold = none → ch'.hold = none

/-- A change of a chain that keeps its capacities and its busy-until. -/
structure Chain.Keeps (tf : Nat) (ch ch' : Chain) : Prop where
  fits : ch.Fits → ch'.Fits
  timed : ch.Timed tf → ch'.Timed tf

/-- A change of a chain that queues no frame but SAFE_ALL and begins no scan. -/
structure Chain.Quiet (tf : Nat) (ch ch' : Chain) : Prop extends Chain.Keeps tf ch ch' where
  queue : ∀ f ∈ ch'.queue, f ∈ ch.queue ∨ f = .safeAll
  scan : ch'.scan.isSome = true → ch.scan.isSome = true

/-- The part has work that R132 excludes while SAFE is asserted, if SAFE is asserted at all. -/
def State.Working (s : State) : Prop :=
  s.safeLow = true → s.timeline ≠ [] ∨ ∃ c, (s.chan c).hold ≠ none

theorem State.working_of_safeHigh {s : State} (h : s.safeLow = false) : s.Working := fun h' => by simp [h] at h'

/-- Every entry holds 1 to 4 owner references (R97). -/
def EntriesOwned (l : List Entry) : Prop := ∀ e ∈ l, 1 ≤ e.owners.length ∧ e.owners.length ≤ 4

/-- A change of the timeline that keeps its capacity, the merge window and the owner references. -/
structure TimelineKeeps (window : Nat) (l l' : List Entry) : Prop where
  length : l.length ≤ 256 → l'.length ≤ 256
  apart : l.Pairwise (apart window) → l'.Pairwise (apart window)
  owners : EntriesOwned l → EntriesOwned l'

/-! ### The moves -/

/-- One move of the part. -/
inductive Move (s : State) : State → Prop
  /-- Outcomes, notices, replies, and what requests and passes do to a port. -/
  | ports (ps : Vector PortRec 3) (h : ∀ p : Port, (s.port p).Keeps ps[p]) : Move s { s with ports := ps }
  | clock (c : Clock) (h : s.clock.Keeps c) : Move s { s with clock := c }
  /-- Entries come only to a part with work, which R132 excludes under SAFE. -/
  | timeline (l : List Entry) (h : TimelineKeeps s.settings.mergeWindow s.timeline l) (hw : l ≠ [] → s.Working) :
      Move s { s with timeline := l }
  /-- A slot takes its owners from an entry, and a hold is lifted in a part with work and no scan of the chain. -/
  | channels (cs : Vector Channel 128) (h : ∀ c : ChanId, (s.chan c).Keeps cs[c])
      (owners : ∀ (c : ChanId) new, cs[c].slot = some new →
        (∃ old, (s.chan c).slot = some old ∧ new.owners.length ≤ old.owners.length) ∨
          ∃ e ∈ s.timeline, new.owners = e.owners)
      (hold : ∀ c : ChanId, (s.chan c).hold = none →
        cs[c].hold = none ∨ (s.Working ∧ s.scanning (chainOf c) = false)) : Move s { s with channels := cs }
  /-- Frames but SAFE_ALL are placed in a part with work, and a scan begins on a chain with no LIFTED hold. -/
  | chains (ds : Vector Chain 4) (h : ∀ d : ChainId, (s.chain d).Keeps s.settings.frameTime ds[d])
      (queue : ∀ d : ChainId, ∀ f ∈ ds[d].queue, f ∈ (s.chain d).queue ∨ f = .safeAll ∨ s.Working)
      (scan : ∀ d : ChainId, ds[d].scan.isSome = true → (s.chain d).scan.isSome = true ∨
        ∀ c, chainOf c = d → (s.chan c).hold = none) : Move s { s with chains := ds }
  | energised (l : List Member) (h : l.length ≤ s.energised.length ∨ l.length ≤ s.settings.supplyLimit) :
      Move s { s with energised := l }
  /-- What no invariant speaks of. -/
  | rest (now nextCooling : StageTime) (sag low : Bool) (m : Monitor) (n : Nat) (q : List Instr) :
      Move s { s with now := now, nextCooling := nextCooling, sagLatch := sag, supplyLow := low, monitor := m,
                      freeCount := n, pending := q }
  /-- SYS_SETUP on a part at rest (R134). -/
  | settings (g : Settings) (timeline : s.timeline = []) (chains : ∀ d, (s.chain d).idle = true)
      (energised : s.energised.length ≤ g.supplyLimit) : Move s { s with settings := g }
  /-- The SAFE line moves while RESET is asserted, or rises. -/
  | line (low : Bool) (h : s.resetLow = true ∨ low = false) : Move s { s with safeLow := low }
  | enterSafe : Move s (State.enterSafe { s with safeLow := true })
  | held : Move s s.held
  | released : Move s s.released

/-- A run of moves. -/
inductive Moves (s : State) : State → Prop
  | refl : Moves s s
  | step {t u : State} (h : Moves s t) (m : Move t u) : Moves s u

theorem Move.run {s t : State} (m : Move s t) : Moves s t := .step .refl m

theorem Moves.trans {s t u : State} (h : Moves s t) (k : Moves t u) : Moves s u := by
  induction k with
  | refl => exact h
  | step _ m ih => exact .step ih m

/-- A property that every move keeps is kept by a run of moves. -/
theorem Moves.kept {Inv : State → Prop} (h : ∀ s t, Move s t → Inv s → Inv t) {s t : State} (m : Moves s t)
    (hs : Inv s) : Inv t := by
  induction m with
  | refl => exact hs
  | step _ k ih => exact h _ _ k ih

/-! ### Changes that keep nothing but what they leave alone -/

theorem PortRec.Keeps.refl (r : PortRec) : r.Keeps r := ⟨id, id, id, id⟩

theorem PortRec.Keeps.trans {r q t : PortRec} (h : r.Keeps q) (k : q.Keeps t) : r.Keeps t :=
  ⟨k.region ∘ h.region, k.fits ∘ h.fits, k.reading ∘ h.reading, k.latches ∘ h.latches⟩

/-- A port at work keeps them. -/
theorem PortRec.Worked.keeps {r r' : PortRec} (h : r.Worked r') : r.Keeps r' where
  region hr := h.mem ▸ hr
  fits := fun ⟨hq, ho, hrec, hlost⟩ =>
    ⟨h.queue ▸ hq, h.opened.trans ho, h.unit.records hrec, h.unit.lost hlost⟩
  reading := h.reading.trans
  latches hu i hi := by
    rw [h.unit.enables]
    exact (h.unit.from_enabled i hi).elim (hu i) id

/-- A change of a port's reader, with its unit and memory as they were. -/
theorem PortRec.keeps_of_reader {r r' : PortRec} (mem : r'.mem = r.mem) (unit : r'.unit = r.unit)
    (queue : r'.reader.queue.length ≤ r.reader.queue.length)
    (opened : r'.reader.opened.length ≤ r.reader.opened.length)
    (reading : r'.reader.readingCount ≤ r.reader.readingCount) : r.Keeps r' where
  region hr := mem ▸ hr
  fits := fun ⟨hq, ho, hrest⟩ => ⟨queue.trans hq, opened.trans ho, unit ▸ hrest⟩
  reading := reading.trans
  latches hu := unit ▸ hu

/-- A change of a port's unit that keeps its capacity and its latches. -/
theorem PortRec.keeps_of_unit {f : NoticeUnit → NoticeUnit} (r : PortRec)
    (fits : r.unit.records.length ≤ 64 ∧ r.unit.lost ≤ 65535 → (f r.unit).records.length ≤ 64 ∧ (f r.unit).lost ≤ 65535)
    (latches : r.unit.LatchesOk → (f r.unit).LatchesOk) : r.Keeps (r.modUnit f) where
  region := id
  fits := fun ⟨hq, ho, hrest⟩ => ⟨hq, ho, fits hrest⟩
  reading := id
  latches := latches

theorem Clock.Keeps.refl (c : Clock) : c.Keeps c := ⟨id, id, id⟩

theorem Channel.Keeps.refl (ch : Channel) : ch.Keeps ch := ⟨id, id, id, id⟩

theorem Channel.Quiet.refl (ch : Channel) : ch.Quiet ch := ⟨.refl ch, fun new h => ⟨new, h, le_rfl⟩, id⟩

theorem Channel.Keeps.trans {a b c : Channel} (h : a.Keeps b) (k : b.Keeps c) : a.Keeps c :=
  ⟨k.heat ∘ h.heat, k.knots ∘ h.knots, k.cause ∘ h.cause, k.slot ∘ h.slot⟩

theorem Channel.Quiet.trans {a b c : Channel} (h : a.Quiet b) (k : b.Quiet c) : a.Quiet c where
  toKeeps := h.toKeeps.trans k.toKeeps
  owners new hn := by
    obtain ⟨mid, hm, hlen⟩ := k.owners new hn
    obtain ⟨old, ho, hlen'⟩ := h.owners mid hm
    exact ⟨old, ho, hlen.trans hlen'⟩
  hold := k.hold ∘ h.hold

theorem Chain.Quiet.refl (tf : Nat) (ch : Chain) : ch.Quiet tf ch := ⟨⟨id, id⟩, fun _ h => .inl h, id⟩

/-! ### Moves of one port, channel or chain -/

/-- A part that differs in its ports alone, each kept. -/
theorem Moves.of_ports {s t : State} (rest : t = { s with ports := t.ports })
    (h : ∀ p, (s.port p).Keeps (t.port p)) : Moves s t := by
  rw [rest]
  exact (Move.ports t.ports h).run

theorem Moves.modPort {f : PortRec → PortRec} (s : State) (p : Port) (h : (s.port p).Keeps (f (s.port p))) :
    Moves s (s.modPort p f) := by
  refine .of_ports rfl fun q => ?_
  rw [State.modPort_port]
  split
  · rename_i hq
    rw [hq]
    exact h
  · exact .refl _

theorem Moves.modPorts {f : PortRec → PortRec} (s : State) (h : ∀ r : PortRec, r.Keeps (f r)) :
    Moves s (s.modPorts f) :=
  .of_ports rfl fun q => (s.modPorts_port f q) ▸ h _

/-- The part while its ports work. -/
theorem State.Worked.moves {s t : State} (h : s.Worked t) : Moves s t := .of_ports h.rest fun p => (h.port p).keeps

theorem Moves.modClock {f : Clock → Clock} (s : State) (h : s.clock.Keeps (f s.clock)) : Moves s (s.modClock f) :=
  (Move.clock _ h).run

/-- One channel changed; its slot may take its owners from an entry, and its hold may be lifted. -/
theorem Moves.modChan {f : Channel → Channel} (s : State) (c : ChanId) (h : (s.chan c).Keeps (f (s.chan c)))
    (owners : ∀ new, (f (s.chan c)).slot = some new →
      (∃ old, (s.chan c).slot = some old ∧ new.owners.length ≤ old.owners.length) ∨
        ∃ e ∈ s.timeline, new.owners = e.owners)
    (hold : (s.chan c).hold = none → (f (s.chan c)).hold = none ∨ (s.Working ∧ s.scanning (chainOf c) = false)) :
    Moves s (s.modChan c f) := by
  have he : ∀ e : ChanId, (s.modChan c f).channels[e] = if e = c then f (s.chan c) else s.chan e :=
    fun e => State.modChan_chan s c e f
  refine (Move.channels (s.modChan c f).channels (fun e => ?_) (fun e => ?_) fun e => ?_).run <;> rw [he e] <;> split
  · rename_i hc
    rw [hc]
    exact h
  · exact .refl _
  · rename_i hc
    rw [hc]
    exact owners
  · exact fun new hn => .inl ⟨new, hn, le_rfl⟩
  · rename_i hc
    rw [hc]
    exact hold
  · exact .inl

theorem Moves.modChan_quiet {f : Channel → Channel} (s : State) (c : ChanId) (h : (s.chan c).Quiet (f (s.chan c))) :
    Moves s (s.modChan c f) :=
  .modChan s c h.toKeeps (fun new hn => .inl (h.owners new hn)) fun hn => .inl (h.hold hn)

/-- Every channel changed quietly. -/
theorem Moves.mapChannels {f : Channel → Channel} (s : State) (h : ∀ ch : Channel, ch.Quiet (f ch)) :
    Moves s { s with channels := s.channels.map f } := by
  have hq : ∀ e : ChanId, (s.chan e).Quiet (s.channels.map f)[e] := by
    intro e
    simpa [State.chan] using h (s.channels[e])
  exact (Move.channels _ (fun e => (hq e).toKeeps) (fun e new hn => .inl ((hq e).owners new hn))
    (fun e he => .inl ((hq e).hold he))).run

theorem Moves.modChain {f : Chain → Chain} (s : State) (d : ChainId)
    (h : (s.chain d).Keeps s.settings.frameTime (f (s.chain d)))
    (queue : ∀ x ∈ (f (s.chain d)).queue, x ∈ (s.chain d).queue ∨ x = .safeAll ∨ s.Working)
    (scan : (f (s.chain d)).scan.isSome = true → (s.chain d).scan.isSome = true ∨
      ∀ c, chainOf c = d → (s.chan c).hold = none) : Moves s (s.modChain d f) := by
  have he : ∀ e : ChainId, (s.modChain d f).chains[e] = if e = d then f (s.chain d) else s.chain e :=
    fun e => State.modChain_chain s d e f
  refine (Move.chains (s.modChain d f).chains (fun e => ?_) (fun e => ?_) fun e => ?_).run <;> rw [he e] <;> split
  · rename_i hd
    rw [hd]
    exact h
  · exact ⟨id, id⟩
  · rename_i hd
    rw [hd]
    exact queue
  · exact fun x hx => .inl hx
  · rename_i hd
    rw [hd]
    exact scan
  · exact fun hx => .inl hx

theorem Moves.modChain_quiet {f : Chain → Chain} (s : State) (d : ChainId)
    (h : (s.chain d).Quiet s.settings.frameTime (f (s.chain d))) : Moves s (s.modChain d f) :=
  .modChain s d h.toKeeps (fun x hx => (h.queue x hx).imp id .inl) fun hx => .inl (h.scan hx)

/-- Every chain changed quietly. -/
theorem Moves.mapChains {f : Chain → Chain} (s : State) (h : ∀ ch : Chain, ch.Quiet s.settings.frameTime (f ch)) :
    Moves s { s with chains := s.chains.map f } := by
  have hq : ∀ e : ChainId, (s.chain e).Quiet s.settings.frameTime (s.chains.map f)[e] := by
    intro e
    simpa [State.chain] using h (s.chains[e])
  exact (Move.chains _ (fun e => (hq e).toKeeps) (fun e x hx => ((hq e).queue x hx).imp id .inl)
    (fun e he => .inl ((hq e).scan he))).run

/-- A run of moves for each element of a list. -/
theorem Moves.foldl {α : Type} {f : State → α → State} (h : ∀ s a, Moves s (f s a)) (l : List α) (s : State) :
    Moves s (l.foldl f s) := by
  induction l generalizing s with
  | nil => exact .refl
  | cons a as ih => exact (h s a).trans (ih _)

end Sys2Proof.Machine
end

section
/-! PROOFS. The moves of the timeline: a withdrawal, a departure, a retime, an insertion and a merge keep its capacity,
its merge windows and its owner references (R97, R98, R103, R104, R107). -/

namespace Sys2Proof.Machine

/-! ### Strokes that stand apart (R103) -/

/-- An entry is a STRIKE entry of a channel. -/
def Entry.Strikes (e : Entry) (c : ChanId) : Prop := ∃ fig, e.action = .strike c fig

theorem isPartner_iff {window : Nat} {c : ChanId} {target : StageTime} {e : Entry} :
    isPartner window c target e = true ↔ e.Strikes c ∧ distance e.target target ≤ window := by
  unfold isPartner Entry.Strikes
  split
  · rename_i c' fig h
    simp [h]
  · rename_i h
    exact iff_of_false Bool.false_ne_true fun ⟨⟨fig, hf⟩, _⟩ => h c fig hf

theorem distance_comm (a b : StageTime) : distance a b = distance b a := Nat.min_comm _ _

theorem apart_iff {window : Nat} {x y : Entry} :
    apart window x y ↔ ∀ c, x.Strikes c → y.Strikes c → window < distance x.target y.target := by
  have hp : ∀ c, isPartner window c x.target y = false ↔ (y.Strikes c → window < distance x.target y.target) := by
    intro c
    rw [← Bool.not_eq_true, isPartner_iff, distance_comm]
    exact ⟨fun h hy => not_le.mp fun hd => h ⟨hy, hd⟩, fun h hy => absurd hy.2 (h hy.1).not_ge⟩
  simp only [apart, hp, Entry.Strikes]
  exact ⟨fun h c ⟨fig, hf⟩ => h c fig hf, fun h c fig hf => h c ⟨fig, hf⟩⟩

theorem apart_symm {window : Nat} {x y : Entry} (h : apart window x y) : apart window y x := by
  rw [apart_iff] at h ⊢
  exact fun c hy hx => distance_comm x.target y.target ▸ h c hx hy

/-- An entry aims as another does: at the same target, and at the same channel if it strikes one. -/
structure Entry.AimsAs (y x : Entry) : Prop where
  target : y.target = x.target
  strikes : ∀ c, y.Strikes c → x.Strikes c

theorem apart_of_aimsAs {window : Nat} {x y z : Entry} (ha : y.AimsAs x) (h : apart window x z) : apart window y z := by
  rw [apart_iff] at h ⊢
  exact fun c hy hz => ha.target ▸ h c (ha.strikes c hy) hz

/-! ### Changes of the timeline -/

theorem TimelineKeeps.refl (window : Nat) (l : List Entry) : TimelineKeeps window l l := ⟨id, id, id⟩

theorem TimelineKeeps.of_sublist {window : Nat} {l l' : List Entry} (h : l'.Sublist l) : TimelineKeeps window l l' :=
  ⟨h.length_le.trans, fun hp => hp.sublist h, fun ho e he => ho e (h.mem he)⟩

theorem TimelineKeeps.of_perm {window : Nat} {l l' : List Entry} (h : l'.Perm l) : TimelineKeeps window l l' :=
  ⟨h.length_eq.le.trans, fun hp => (h.pairwise_iff apart_symm).mpr hp, fun ho e he => ho e (h.mem_iff.mp he)⟩

theorem TimelineKeeps.trans {window : Nat} {a b c : List Entry} (h : TimelineKeeps window a b)
    (k : TimelineKeeps window b c) : TimelineKeeps window a c :=
  ⟨k.length ∘ h.length, k.apart ∘ h.apart, k.owners ∘ h.owners⟩

/-- One entry replaced by one that aims as it did and keeps 1 to 4 owners. -/
theorem TimelineKeeps.replace {window : Nat} {x y : Entry} (l : List Entry) (ha : y.AimsAs x)
    (ho : 1 ≤ x.owners.length ∧ x.owners.length ≤ 4 → 1 ≤ y.owners.length ∧ y.owners.length ≤ 4) :
    TimelineKeeps window (x :: l) (y :: l) where
  length := id
  apart hp := by
    rw [List.pairwise_cons] at hp ⊢
    exact ⟨fun z hz => apart_of_aimsAs ha (hp.1 z hz), hp.2⟩
  owners hown e he := by
    rcases List.mem_cons.mp he with rfl | he
    · exact ho (hown x List.mem_cons_self)
    · exact hown e (List.mem_cons_of_mem _ he)

/-- A withdrawal takes owners away, and entries that keep none (R107). -/
theorem withdrawFrom_keeps (window : Nat) (takes : OwnerRef → Bool) (l : List Entry) :
    TimelineKeeps window l (withdrawFrom takes l) where
  length := (withdrawFrom_length takes l).trans
  apart hp := by
    have hkey : ∀ x y : Entry, x.without takes = some y → y.AimsAs x := by
      intro x y h
      unfold Entry.without at h
      split at h
      · cases h
      · cases h
        exact ⟨rfl, fun _ => id⟩
    refine List.Pairwise.filterMap (Entry.without takes) (fun a a' hr b hb b' hb' => ?_) hp
    exact apart_of_aimsAs (hkey _ _ hb) (apart_symm (apart_of_aimsAs (hkey _ _ hb') (apart_symm hr)))
  owners ho e he := by
    obtain ⟨x, hx, hex, hne⟩ := mem_withdrawFrom he
    refine ⟨List.length_pos_iff.mpr hne, ?_⟩
    rw [hex]
    exact (List.length_filter_le _ _).trans (ho x hx).2

theorem placeEntry_perm (e : Entry) (l : List Entry) : (placeEntry e l).Perm (e :: l) := placeAfter_perm ..

/-- The head of the timeline placed again, at a new send time (R99). -/
theorem placeAgain_keeps (window : Nat) (e : Entry) (rest : List Entry) (t : StageTime) :
    TimelineKeeps window (e :: rest) (placeEntry { e with send := t, retimed := true } rest) :=
  (TimelineKeeps.replace rest (x := e) (y := { e with send := t, retimed := true }) ⟨rfl, fun _ => id⟩ id).trans
    (.of_perm (placeEntry_perm _ _))

/-- An entry with one owner and no merge partner, placed where there is room (R98, R101, R103). -/
theorem placeEntry_keeps {window : Nat} {e : Entry} {ref : OwnerRef} {l : List Entry} (ho : e.owners = [ref])
    (hroom : l.length < 256)
    (hapart : ∀ c fig, e.action = .strike c fig → ∀ x ∈ l, isPartner window c e.target x = false) :
    TimelineKeeps window l (placeEntry e l) where
  length _ := (placeAfter_length ..).trans_le hroom
  apart hp := by
    rw [(placeEntry_perm ..).pairwise_iff apart_symm, List.pairwise_cons]
    exact ⟨fun x hx c fig hf => hapart c fig hf x hx, hp⟩
  owners hown x hx := by
    rcases mem_placeAfter.mp hx with rfl | hx
    · simp [ho]
    · exact hown x hx

/-- A merge gives the partner one more owner, its target and its channel kept (R104). -/
theorem mergeInto_keeps {c : ChanId} (fig : Figures) (ref : OwnerRef) {pre post : List Entry} {partner : Entry}
    {s : State} (hs : partner.Strikes c) (hroom : partner.owners.length < 4) :
    TimelineKeeps s.settings.mergeWindow (pre ++ partner :: post) (mergeInto c fig ref pre partner post s).timeline := by
  obtain ⟨joined, hperm, hown, htarget, hact⟩ := mergeInto_timeline c fig ref pre post partner s
  have haims : joined.AimsAs partner := by
    refine ⟨htarget, fun e ⟨f, hf⟩ => ?_⟩
    rcases hact with hact | hact
    · exact ⟨f, hact ▸ hf⟩
    · rw [hact, Action.strike.injEq] at hf
      exact hf.1 ▸ hs
  have howners : joined.owners.length = partner.owners.length + 1 := by simp [hown]
  exact (TimelineKeeps.of_perm List.perm_middle.symm).trans
    ((TimelineKeeps.replace (pre ++ post) haims (by omega)).trans (.of_perm hperm))

/-! ### Moves that change the timeline -/

/-- A run of moves to a part that has a new timeline and whose ports have worked. -/
theorem Moves.timeline {s t : State} {l : List Entry} (h : TimelineKeeps s.settings.mergeWindow s.timeline l)
    (hw : l ≠ [] → s.Working) (work : State.Worked { s with timeline := l } t) : Moves s t :=
  (Move.timeline l h hw).run.trans work.moves

/-- The entries that a part holds are work. -/
theorem State.working_of_timeline {s : State} (h : s.timeline ≠ []) : s.Working := fun _ => .inl h

theorem State.withdraw_moves (s : State) (takes : OwnerRef → Bool) (code : OutcomeCode) :
    Moves s (s.withdraw takes code) :=
  .timeline (withdrawFrom_keeps _ takes _)
    (fun h => State.working_of_timeline fun h' => h (by rw [h']; rfl)) (s.withdraw_worked takes code)

/-- An arming in a part with work (R67, R68, R70). -/
theorem State.arm_moves {s : State} (ref : OwnerRef) {a : Arm} (ha : ∀ e, a = .offer e → e.owners = [ref])
    (hw : s.Working) : Moves s (s.arm ref a).2 := by
  refine .timeline ?_ (fun _ => hw) (s.arm_worked ref a)
  cases a with
  | given o =>
    have hsame : (s.arm ref (.given o)).2.timeline = s.timeline := by simp [State.arm]
    exact hsame ▸ .refl _ _
  | offer e =>
    obtain ⟨o, s', ho⟩ : ∃ o s', offerEntry e ref s = (o, s') := ⟨_, _, rfl⟩
    have hsame : (s.arm ref (.offer e)).2.timeline = s'.timeline := by
      simp only [State.arm, ho]
      cases o <;> simp
    rw [hsame]
    rcases offerEntry_cases ho with ⟨-, hroom, rfl, hapart⟩ |
      ⟨-, c, fig, pre, partner, post, -, hl, hp, hroom, rfl⟩ | ⟨-, rfl⟩ | ⟨-, -, rfl⟩
    · exact placeEntry_keeps (ha e rfl) (admits_length hroom) hapart
    · exact hl ▸ mergeInto_keeps fig ref (isPartner_iff.mp hp).1 hroom
    · exact .refl _ _
    · exact .refl _ _

end Sys2Proof.Machine
end

section
/-! PROOFS. What the requests and the events do to one port, one channel, one chain and the clock keeps what a move
keeps of it. -/

namespace Sys2Proof.Machine

/-! ### Ports -/

/-- A port with its notice unit, memory and reader as they were. -/
theorem PortRec.keeps_of_rest {r r' : PortRec} (mem : r'.mem = r.mem) (unit : r'.unit = r.unit)
    (reader : r'.reader = r.reader) : r.Keeps r' :=
  PortRec.keeps_of_reader mem unit (reader ▸ le_rfl) (reader ▸ le_rfl) (reader ▸ le_rfl)

theorem PortRec.portReset_keeps (r : PortRec) : r.Keeps r.portReset where
  region := id
  fits _ := by
    simp [PortRec.Fits, PortRec.portReset, Reader.reset, NoticeUnit.reset]
  reading _ := Nat.zero_le 1
  latches _ i hi := by simp [PortRec.portReset, NoticeUnit.reset] at hi

/-- A write within the 2048 cells keeps the region (R42). -/
theorem PortRec.writeBytes_keeps (r : PortRec) {a : Nat} {data : List Byte} (h : a + data.length ≤ 16384) :
    r.Keeps { r with mem := writeBytes r.mem a data } where
  region := fun ⟨hwf, hin⟩ => by
    refine ⟨Memory.wf_writeBytes hwf a data, fun x hx => ?_⟩
    rcases Memory.mem_writeBytes hx with hx | hx
    · omega
    · exact hin x hx
  fits := id
  reading := id
  latches := id

theorem PortRec.post_keeps {r : PortRec} (h : r.reader.queue.length < 4) (start : Nat) (origin : Origin) (head : Head) :
    r.Keeps { r with reader := r.reader.post start origin head } where
  region := id
  fits := fun ⟨_, hrest⟩ => ⟨by simp [Reader.post]; omega, hrest⟩
  reading := id
  latches := id

theorem PortRec.discardQueue_keeps (r : PortRec) : r.Keeps (r.modReader Reader.discardQueue) :=
  PortRec.keeps_of_reader rfl rfl (Nat.zero_le _) le_rfl le_rfl

theorem PortRec.setChainEnd_keeps (r : PortRec) (e : Option ChainEnd) :
    r.Keeps (r.modReader fun rd => { rd with chainEnd := e }) :=
  PortRec.keeps_of_reader rfl rfl le_rfl le_rfl le_rfl

theorem PortRec.stopNow_keeps (now : StageTime) (r : PortRec) : r.Keeps (r.stopNow now) :=
  (r.discardQueue_keeps.trans (PortRec.leaveReading_worked now (by decide) _).keeps).trans (PortRec.setChainEnd_keeps _ none)

theorem PortRec.errorCurrent_keeps (now : StageTime) (r : PortRec) : r.Keeps (r.errorCurrent now) := by
  unfold PortRec.errorCurrent
  split
  · exact (r.setChainEnd_keeps _).trans (PortRec.leaveReading_worked now (by decide) _).keeps
  · exact .refl r

theorem PortRec.beginPass_keeps (now : StageTime) (tick : Tick) (next : StageTime) (r : PortRec) :
    r.Keeps { r.modReader (Reader.age now tick) with nextPass := next } :=
  PortRec.keeps_of_reader rfl rfl (List.length_map _).le le_rfl le_rfl

/-- With no current phrase no open record is READING. -/
theorem Reader.readingCount_of_no_current {rd : Reader} (h : rd.current = none) : rd.readingCount = 0 := by
  rw [Reader.current, List.find?_eq_none] at h
  rw [Reader.readingCount, List.length_eq_zero_iff, List.filter_eq_nil_iff]
  exact h

/-- A take opens one record, where there was room and no current phrase (R60). -/
theorem PortRec.open_keeps {r : PortRec} {q : QueueSlot} {rest : List QueueSlot} (hq : r.reader.queue = q :: rest)
    (hroom : r.reader.opened.length < 8) (hcurrent : r.reader.current = none) (o : OpenRec) :
    r.Keeps (r.modReader fun rd => { rd with queue := rest, opened := rd.opened ++ [o] }) where
  region := id
  fits := fun ⟨hlen, _, hrest⟩ => by
    rw [hq, List.length_cons] at hlen
    exact ⟨by simp only [PortRec.modReader]; omega, by simp [PortRec.modReader]; omega, hrest⟩
  reading _ := by
    have hzero := Reader.readingCount_of_no_current hcurrent
    simp only [Reader.readingCount, PortRec.modReader, List.filter_append, List.length_append] at hzero ⊢
    have := List.length_filter_le (fun x : OpenRec => x.reading == .reading) [o]
    simp only [List.length_singleton] at this
    omega
  latches := id

theorem State.takePhrase_moves {s t : State} {p : Port} (h : s.takePhrase p = some t) : Moves s t := by
  unfold State.takePhrase at h
  simp only at h
  split at h
  · cases h
  · rename_i hno
    simp only [Bool.or_eq_true, decide_eq_true_eq, not_or, Option.not_isSome_iff_eq_none] at hno
    obtain ⟨⟨-, hcurrent⟩, hroom⟩ := hno
    split at h
    · cases h
    · rename_i q rest hq
      cases h
      refine .modPort s p ((PortRec.open_keeps hq (by omega) hcurrent
        (q.open (s.fixOrigin (s.port p).reader.chainEnd q))).trans ?_)
      split
      · exact ((PortRec.raise_worked ..).trans (PortRec.settle_worked ..)).keeps
      · exact (PortRec.settle_worked ..).keeps

/-- A judgement of a unit keeps its capacity and its latches. -/
theorem PortRec.judge_keeps {g : NoticeUnit → NoticeUnit} (now : StageTime) (was is : NoticeUnit → Bool) (r : PortRec)
    (records : (g r.unit).records.length ≤ r.unit.records.length) (lost : (g r.unit).lost = r.unit.lost)
    (latches : (g r.unit).latches = r.unit.latches) (enables : (g r.unit).enables = r.unit.enables) :
    r.Keeps (r.modUnit fun u => (g u).judge now .doneHigh (was u) (is u)) := by
  have hg : r.Keeps (r.modUnit g) :=
    PortRec.keeps_of_unit r (fun ⟨hr, hl⟩ => ⟨records.trans hr, lost ▸ hl⟩) fun hu i hi =>
      enables ▸ hu i (latches ▸ hi)
  exact hg.trans (PortRec.modUnit_worked
    (f := fun v => v.judge now .doneHigh (was r.unit) (is r.unit)) (fun v => (NoticeUnit.judge_noticed ..).worked) _).keeps

theorem PortRec.removeOldest_keeps (now : StageTime) (n : Nat) (r : PortRec) :
    r.Keeps (r.modUnit (NoticeUnit.removeOldest now n)) :=
  PortRec.judge_keeps (g := fun u => { u with records := u.records.drop n }) now NoticeUnit.doneHigh
    (fun u => NoticeUnit.doneHigh { u with records := u.records.drop n }) r (by simp) rfl rfl rfl

theorem PortRec.setFilter_keeps (now : StageTime) (filter : Filter) (mark : Nat) (r : PortRec) :
    r.Keeps (r.modUnit (NoticeUnit.setFilter now filter mark)) :=
  PortRec.judge_keeps (g := fun u => { u with filter := filter, mark := mark }) now NoticeUnit.doneHigh
    (fun u => NoticeUnit.doneHigh { u with filter := filter, mark := mark }) r le_rfl rfl rfl rfl

theorem PortRec.mask_keeps (sel : BitVec 14) (r : PortRec) :
    r.Keeps (r.modUnit fun u => ({ u with enables := sel } : NoticeUnit).keepLatches sel) :=
  PortRec.keeps_of_unit r id fun _ i hi => by
    simp only [NoticeUnit.keepLatches, BitVec.getLsbD_and, Bool.and_eq_true] at hi
    exact hi.2

theorem PortRec.keepLatches_keeps (keep : BitVec 14) (r : PortRec) :
    r.Keeps (r.modUnit (NoticeUnit.keepLatches keep)) :=
  PortRec.keeps_of_unit r id fun hu i hi => by
    simp only [NoticeUnit.keepLatches, BitVec.getLsbD_and, Bool.and_eq_true] at hi
    exact hu i hi.1

theorem PortRec.force_keeps (now : StageTime) (sel : BitVec 14) (r : PortRec) :
    r.Keeps (r.modUnit (NoticeUnit.force now sel)) :=
  PortRec.keeps_of_unit r id fun hu i hi => by
    simp only [NoticeUnit.force, BitVec.getLsbD_or, BitVec.getLsbD_and, Bool.or_eq_true, Bool.and_eq_true] at hi
    exact hi.elim (hu i) And.right

/-- What a port is told of a crossing is notices (R10). -/
theorem PortRec.tellBeat_worked (now : StageTime) (bar : BitVec 16) (beat : Nat) (barLine : Bool) (r : PortRec) :
    r.Worked (r.tellBeat now bar beat barLine) := by
  have hbeat : ∀ q : PortRec, q.Worked (if q.beatMode = .beat || (q.beatMode = .bar && barLine) then
      q.modUnit (NoticeUnit.raise now .beat) else q) := by
    intro q
    split
    · exact PortRec.raise_worked ..
    · exact .refl q
  refine PortRec.Worked.trans (q := if r.cue.fits bar beat then r.modUnit (NoticeUnit.raise now .cue) else r) ?_ (hbeat _)
  split
  · exact PortRec.raise_worked ..
  · exact .refl r

theorem PortRec.safeHold_worked (now : StageTime) (r : PortRec) : r.Worked (r.safeHold now) := by
  unfold PortRec.safeHold
  split
  · exact .refl r
  · exact PortRec.hold_worked ..

/-! ### The clock -/

/-- A change of the clock that leaves rate, ramp, meter and beat. -/
theorem Clock.keeps_of_rest {c c' : Clock} (rate : c'.rate = c.rate) (ramp : c'.ramp = c.ramp) (meter : c'.meter = c.meter)
    (pending : c'.pendingMeter = c.pendingMeter) (beat : c'.beat = c.beat) (cues : c'.cues.length ≤ c.cues.length) :
    c.Keeps c' where
  rate h := by rw [rate, ramp]; exact h
  meter h := by rw [meter, pending, beat]; exact h
  cues := cues.trans

/-- A change of the clock in its rate and ramp alone. -/
theorem Clock.keeps_of_rate {c c' : Clock} (rate : rateInRange c.rate ∧ c.ramp.targetInRange →
      rateInRange c'.rate ∧ c'.ramp.targetInRange) (meter : c'.meter = c.meter)
    (pending : c'.pendingMeter = c.pendingMeter) (beat : c'.beat = c.beat) (cues : c'.cues = c.cues) : c.Keeps c' where
  rate := rate
  meter h := by rw [meter, pending, beat]; exact h
  cues h := by rw [cues]; exact h

theorem rateOfTempo_inRange (h : Nat) : rateInRange (rateOfTempo h) := by
  have hword := rateOfTempo_toNat h
  have hclamp : min 30000 (max 1000 h) ≤ 30000 := min_le_left _ _
  unfold rateInRange wMin wMax
  generalize (rateOfTempo h).toNat = w at hword ⊢
  omega

theorem Clock.setTempo_keeps (h : Nat) (c : Clock) : c.Keeps (c.setTempo h) := by
  unfold Clock.setTempo
  exact Clock.keeps_of_rate (fun _ => ⟨rateOfTempo_inRange h, trivial⟩) rfl rfl rfl rfl

theorem Clock.startGlide_keeps (h duration : Nat) (c : Clock) : c.Keeps (c.startGlide h duration) := by
  unfold Clock.startGlide
  split
  · exact c.setTempo_keeps h
  · exact Clock.keeps_of_rate (fun hr => ⟨hr.1, rateOfTempo_inRange h⟩) rfl rfl rfl rfl

/-- A rate within the limits is a 32-bit word. -/
theorem rateInRange_ofNat {n : Nat} (hlow : wMin ≤ n) (hhigh : n ≤ wMax) : rateInRange (BitVec.ofNat 32 n) := by
  have hn : (BitVec.ofNat 32 n).toNat = n := by
    rw [BitVec.toNat_ofNat]
    exact Nat.mod_eq_of_lt (by simp only [wMax] at hhigh; omega)
  rw [rateInRange, hn]
  exact ⟨hlow, hhigh⟩

/-- A ramp stage ends at a limit or moves within them (R6, R7). -/
theorem Clock.rampStage_rate {c : Clock} (h : rateInRange c.rate ∧ c.ramp.targetInRange) :
    rateInRange c.rampStage.rate ∧ c.rampStage.ramp.targetInRange := by
  obtain ⟨hrate, htarget⟩ := h
  have hmin : rateInRange (BitVec.ofNat 32 wMin) := rateInRange_ofNat le_rfl (by decide)
  have hmax : rateInRange (BitVec.ofNat 32 wMax) := rateInRange_ofNat (by decide) le_rfl
  have hmid : ∀ w : Int, ¬ w < wMin → ¬ (wMax : Int) < w → rateInRange (BitVec.ofNat 32 w.toNat) :=
    fun w hlow hhigh => rateInRange_ofNat (by omega) (by omega)
  unfold Clock.rampStage
  split
  · exact ⟨hrate, htarget⟩
  · rename_i target slope left hramp
    have hin : rateInRange target := by
      rw [hramp] at htarget
      exact htarget
    simp only
    split
    · exact ⟨hmin, trivial⟩
    · split
      · exact ⟨hmax, trivial⟩
      · split
        · exact ⟨hin, trivial⟩
        · exact ⟨hmid _ (by assumption) (by assumption), hin⟩
  · simp only
    split
    · exact ⟨hmin, trivial⟩
    · split
      · exact ⟨hmax, trivial⟩
      · split <;> exact ⟨hmid _ (by assumption) (by assumption), trivial⟩

theorem Clock.rampStage_keeps (c : Clock) : c.Keeps c.rampStage := by
  have hrest := c.rampStage_rest
  exact Clock.keeps_of_rate Clock.rampStage_rate (by rw [hrest]) (by rw [hrest]) (by rw [hrest]) (by rw [hrest])

/-- A crossing counts a beat below the meter, or begins a bar of the pending meter (R8, R9). -/
theorem Clock.countBeat_keeps (c : Clock) (till : Option StageTime) : c.Keeps { c.countBeat with beatout := till } where
  rate h := by
    unfold Clock.countBeat
    split <;> exact h
  meter := fun ⟨hmeter, hpending, hbeat⟩ => by
    unfold Clock.countBeat Clock.atBarLine
    split
    · have hnew : meterInRange (c.pendingMeter.getD c.meter) := by
        cases hp : c.pendingMeter with
        | none => exact hmeter
        | some m => exact hpending m hp
      exact ⟨hnew, (fun m hm => absurd hm (by simp)), hnew.1⟩
    · rename_i hline
      rw [beq_iff_eq] at hline
      exact ⟨hmeter, hpending, by simp only; omega⟩
  cues h := by
    unfold Clock.countBeat
    split <;> exact h

theorem Clock.fileCue_keeps {cue : TempoCue} {c c' : Clock} (h : c.fileCue cue = some c') : c.Keeps c' := by
  unfold Clock.fileCue at h
  split at h
  · cases h
    exact ⟨id, id, fun _ => by simp only [placeAfter_length]; omega⟩
  · cases h

/-! ### Channels -/

/-- A change of a channel that leaves its knots, kind and slot, and lifts no hold. -/
theorem Channel.quiet_of_rest {ch ch' : Channel}
    (heat : ch.heat ≤ ch.scalars.heatLimit → ch'.heat ≤ ch'.scalars.heatLimit) (cause : ch.CauseOk → ch'.CauseOk)
    (knots : ch'.knots = ch.knots) (kind : ch.kind = some .strike → ch'.kind = some .strike)
    (slot : ch'.slot = ch.slot) (hold : ch.hold = none → ch'.hold = none) : ch.Quiet ch' where
  heat := heat
  knots h := by rw [Channel.KnotsOk, knots]; exact h
  cause := cause
  slot h hs := kind (h (slot ▸ hs))
  owners new hn := ⟨new, slot ▸ hn, le_rfl⟩
  hold := hold

theorem Channel.quiet_of_presence {ch : Channel} (p : Presence) (x : Option FaultCause)
    (h : ch.CauseOk → (p = .faulted ↔ x.isSome = true)) : ch.Quiet { ch with presence := p, cause := x } :=
  Channel.quiet_of_rest id h rfl id rfl id

/-- A channel set up anew while its slot is free (R28). -/
theorem Channel.configured_quiet {ch : Channel} (h : ch.slot = none) (kind : Kind) (scalars : Scalars) :
    ch.Quiet (ch.configured kind scalars) where
  heat _ := Nat.zero_le _
  knots := id
  cause := id
  slot _ hs := by simp [Channel.configured, h] at hs
  owners new hn := ⟨new, hn, le_rfl⟩
  hold := id

theorem Channel.settle_quiet (board : Option Byte) (output : Fin 8) (ch : Channel) :
    ch.Quiet (ch.settle board output) := by
  unfold Channel.settle
  split
  · exact Channel.quiet_of_presence _ _ (by simp)
  · split
    · exact Channel.quiet_of_presence _ _ (by simp)
    · rename_i hk
      split
      · exact Channel.quiet_of_presence _ _ (by simp)
      · exact Channel.quiet_of_rest id (by simp [Channel.CauseOk]) rfl (by simp [hk]) rfl id
    · exact Channel.quiet_of_presence _ _ (by simp)

theorem Channel.fault_quiet (cause : FaultCause) (ch : Channel) : ch.Quiet (ch.fault cause) := by
  unfold Channel.fault
  split
  · exact .refl ch
  · exact Channel.quiet_of_presence _ _ (by simp)

theorem Channel.miss_quiet (ch : Channel) : ch.Quiet ch.miss := by
  have hcounted : ch.Quiet { ch with misses := satSucc ch.misses 15 } :=
    Channel.quiet_of_rest id id rfl id rfl id
  unfold Channel.miss
  simp only
  split
  · exact hcounted.trans (Channel.fault_quiet ..)
  · exact hcounted

theorem Channel.moveKnot_quiet (k : Nat) (share : Int) (ch : Channel) : ch.Quiet (ch.moveKnot k share) where
  heat h := by rw [ch.moveKnot_frame]; exact h
  cause h := by rw [ch.moveKnot_frame]; exact h
  slot h := by rw [ch.moveKnot_frame]; exact h
  owners new h := ⟨new, by rw [ch.moveKnot_frame] at h; exact h, le_rfl⟩
  hold h := by rw [ch.moveKnot_frame]; exact h
  knots h j := by
    by_cases hj : j.val = k
    · rw [ch.moveKnot_knots_same share hj]
      omega
    · rw [ch.moveKnot_knots_ne share hj]
      exact h j

theorem Channel.adapt_quiet (limit : Nat) (slot : FlightSlot) (measured : Nat) (ch : Channel) :
    ch.Quiet (ch.adapt limit slot measured) := by
  unfold Channel.adapt
  simp only
  split
  · exact .refl ch
  · split
    · exact Channel.quiet_of_rest id id rfl id rfl id
    · split
      · exact .refl ch
      · exact (Channel.moveKnot_quiet ..).trans (Channel.moveKnot_quiet ..)

theorem Channel.freeSlot_quiet (ch : Channel) : ch.Quiet { ch with slot := none } :=
  ⟨⟨id, id, id, fun _ h => absurd h (by simp)⟩, (fun _ h => absurd h (by simp)), id⟩

theorem Channel.forgetPort_quiet (p : Port) (ch : Channel) : ch.Quiet (ch.forgetPort p) where
  heat := id
  knots := id
  cause := id
  slot h hs := h (by simpa [Channel.forgetPort] using hs)
  owners new hn := by
    obtain ⟨old, hold, rfl⟩ := Option.map_eq_some_iff.mp hn
    exact ⟨old, hold, List.length_filter_le ..⟩
  hold h := by simp [Channel.forgetPort, h]

theorem Channel.cool_quiet (ch : Channel) : ch.Quiet ch.cool := by
  unfold Channel.cool
  simp only
  split
  · refine Channel.quiet_of_rest (fun h => ?_) id rfl id rfl id
    simp only
    split <;> omega
  · exact Channel.quiet_of_rest (fun _ => min_le_right _ _) id rfl id rfl id

theorem Channel.dropReadyAfter_quiet (now : StageTime) (ch : Channel) : ch.Quiet (ch.dropReadyAfter now) := by
  rw [Channel.dropReadyAfter_eq]
  exact Channel.quiet_of_rest id id rfl id rfl id

/-! ### Chains -/

/-- A change of a chain that leaves its transmitter, lengthens no list of reports past 16 and begins no scan. -/
theorem Chain.quiet_of_rest {tf : Nat} {ch ch' : Chain} (queue : ch'.queue = ch.queue) (sending : ch'.sending = ch.sending)
    (busy : ch'.busyUntil = ch.busyUntil) (reports : ch.reports.length ≤ 16 → ch'.reports.length ≤ 16)
    (scan : ch'.scan.isSome = true → ch.scan.isSome = true) : ch.Quiet tf ch' where
  fits := fun ⟨hq, hr⟩ => ⟨queue ▸ hq, reports hr⟩
  timed h := by rw [Chain.Timed, sending, queue, busy]; exact h
  queue f hf := .inl (queue ▸ hf)
  scan := scan

theorem Chain.receive_quiet (tf : Nat) (now : StageTime) (word : BitVec 32) (ch : Chain) :
    ch.Quiet tf (ch.receive now word) := by
  rcases ch.receive_cases now word with ⟨-, h⟩ | ⟨_, _, -, ⟨-, h⟩ | ⟨sc, hsc, -, h⟩⟩ | ⟨_, _, _, -, ⟨hlen, h⟩ | ⟨-, h⟩⟩ <;>
    rw [h]
  · exact Chain.quiet_of_rest rfl rfl rfl id id
  · exact .refl tf ch
  · exact Chain.quiet_of_rest rfl rfl rfl id fun _ => by rw [hsc]; rfl
  · exact Chain.quiet_of_rest rfl rfl rfl (fun _ => by simp; omega) id
  · exact Chain.quiet_of_rest rfl rfl rfl id id

/-- The end of a frame hands its time on to the next (R138). -/
theorem Chain.endFrame_quiet (tf : Nat) (ch : Chain) : ch.Quiet tf (ch.endFrame tf) := by
  unfold Chain.endFrame
  split
  · exact .refl tf ch
  · rename_i f start hs
    split
    · rename_i hq
      exact ⟨⟨fun h => ⟨hq ▸ h.1, h.2⟩, fun _ => ⟨hq, rfl⟩⟩, fun g hg => .inl hg, id⟩
    · rename_i g rest hq
      refine ⟨⟨fun h => ⟨?_, h.2⟩, fun h => ?_⟩, fun x hx => .inl (hq ▸ List.mem_cons_of_mem _ hx), id⟩
      · have := h.1
        rw [hq, List.length_cons] at this
        simp only
        omega
      · simp only [Chain.Timed, hs, hq, List.length_cons] at h ⊢
        rw [h, plus_plus]
        congr 2
        ring

/-- Placing a frame moves busy-until to its end (R138). -/
theorem Chain.place_timed {tf : Nat} {ch : Chain} (now : StageTime) (f : DriveFrame) (h : ch.Timed tf) :
    (ch.place now tf f).Timed tf := by
  cases hs : ch.sending with
  | none =>
    simp only [Chain.Timed, hs] at h
    rw [Chain.place_of_not_sending now tf f hs]
    simp only [Chain.Timed, h.1, List.length_nil, Nat.add_zero, Nat.mul_one]
  | some g =>
    simp only [Chain.Timed, hs] at h
    rw [Chain.place_of_sending now tf f hs]
    simp only [Chain.Timed, hs, h, Option.getD_some, plus_plus, List.length_append, List.length_singleton,
      ← Nat.add_assoc, Nat.mul_succ]

theorem Chain.place_keeps {tf : Nat} {ch : Chain} (now : StageTime) (f : DriveFrame) (h : ch.hasRoom = true) :
    ch.Keeps tf (ch.place now tf f) where
  fits := fun ⟨_, hr⟩ => by
    have hlen := ch.place_queue_length now tf f
    simp only [Chain.hasRoom, decide_eq_true_eq] at h
    exact ⟨by omega, by simpa using hr⟩
  timed := Chain.place_timed now f

/-- The start of a scan moves busy-until past its PINGs, if it has any (R147, R148). -/
theorem Chain.startScan_timed {tf : Nat} {ch : Chain} (now : StageTime) (kind : ScanKind) (safe : Bool)
    (h : ch.Timed tf) : (ch.startScan now tf kind safe).Timed tf := by
  have h1 : Chain.Timed tf { ch with scan := some ⟨now, kind, Vector.replicate 4 none, Vector.replicate 4 (!safe)⟩ } := h
  unfold Chain.startScan
  simp only
  split
  · exact h1
  · exact Chain.place_timed _ _ (Chain.place_timed _ _ (Chain.place_timed _ _ (Chain.place_timed _ _ h1)))

/-- The queue discarded, the frame in transmission ends as it would have (R140). -/
theorem Chain.discard_timed (tf : Nat) (ch : Chain) : (ch.discard tf).Timed tf := by
  unfold Chain.discard Chain.Timed
  cases hs : ch.sending with
  | none => exact ⟨rfl, rfl⟩
  | some g => simp

/-- What the entry into the safe state leaves of a chain is timed, and nothing but SAFE_ALL waits (R131 step 2). -/
theorem Chain.safeAll_timed (now : StageTime) (tf : Nat) (ch : Chain) : (ch.safeAll now tf).Timed tf :=
  Chain.place_timed _ _ (Chain.discard_timed tf _)

theorem Chain.mem_safeAll_queue {now : StageTime} {tf : Nat} {ch : Chain} {f : DriveFrame}
    (h : f ∈ (ch.safeAll now tf).queue) : f = .safeAll := by
  rcases Chain.mem_place_queue h with h | h
  · cases h
  · exact h

theorem Chain.safeAll_fits {now : StageTime} {tf : Nat} {ch : Chain} (h : ch.Fits) : (ch.safeAll now tf).Fits := by
  have hlen := (ch.interruptScan.discard tf).place_queue_length now tf .safeAll
  refine ⟨hlen.trans (by simp [Chain.discard]), ?_⟩
  simpa [Chain.safeAll, Chain.discard, Chain.interruptScan] using h.2

end Sys2Proof.Machine
end

section
/-! PROOFS. Every request's block and every event is a run of moves, and so is every step. -/

namespace Sys2Proof.Machine

/-! ### Parts of events -/

theorem Moves.monitor (s : State) (m : Monitor) : Moves s { s with monitor := m } :=
  (Move.rest s.now s.nextCooling s.sagLatch s.supplyLow m s.freeCount s.pending).run

theorem Moves.lines (s : State) (sag low : Bool) : Moves s { s with supplyLow := low, sagLatch := sag } :=
  (Move.rest s.now s.nextCooling sag low s.monitor s.freeCount s.pending).run

theorem Moves.withTimeline (s : State) {l : List Entry} (h : TimelineKeeps s.settings.mergeWindow s.timeline l)
    (hw : l ≠ [] → s.Working) : Moves s (s.withTimeline l) :=
  .timeline h hw (s.withTimeline_worked l)

theorem State.settleUnlessFaulted_moves (s : State) (c : ChanId) : Moves s (s.settleUnlessFaulted c) := by
  refine .modChan_quiet s c ?_
  split
  · exact .refl _
  · exact Channel.settle_quiet ..

theorem State.changeChannel_moves {f : Channel → Channel} (s : State) (c : ChanId)
    (h : (s.chan c).Quiet (f (s.chan c))) : Moves s (s.changeChannel c f) := by
  unfold State.changeChannel
  split
  · exact (Moves.modChan_quiet s c h).trans (State.raiseAll_worked ..).moves
  · exact .modChan_quiet s c h

theorem State.finishStroke_moves {f : Channel → Channel} (s : State) (c : ChanId) (slot : FlightSlot)
    (code : OutcomeCode) (landed : Option (Nat × Int)) (h : ∀ ch : Channel, ch.Quiet (f ch)) :
    Moves s (s.finishStroke c slot f code landed) :=
  (s.changeChannel_moves c ((Channel.freeSlot_quiet _).trans (h _))).trans (State.deliverAll_worked ..).moves

theorem State.takeContact_moves (s : State) (c : ChanId) (slot : FlightSlot) (flight : Nat) :
    Moves s (s.takeContact c slot flight) := by
  unfold State.takeContact
  refine (Moves.monitor s (s.monitor.sampleLanding (landingError slot.launch slot.target flight))).trans
    (State.finishStroke_moves _ c slot _ _ fun ch => ?_)
  refine Channel.Quiet.trans (b := { ch with misses := 0, lastFlight := some flight }) ?_ (Channel.adapt_quiet ..)
  exact Channel.quiet_of_rest id id rfl id rfl id

theorem State.takeStale_moves (s : State) (d : ChainId) : Moves s (s.takeStale d) :=
  .modChain_quiet s d (Chain.quiet_of_rest rfl rfl rfl id id)

theorem Moves.deenergise (s : State) (c : ChanId) : Moves s { s with energised := deenergise c s.energised } :=
  (Move.energised _ (.inl (deenergise_length ..))).run

theorem Channel.dropHold_quiet (ch : Channel) : ch.Quiet { ch with hold := none } :=
  Channel.quiet_of_rest id id rfl id rfl fun _ => rfl

theorem State.endHold_moves (s : State) (c : ChanId) : Moves s (s.endHold c) :=
  (Moves.modChan_quiet s c (Channel.dropHold_quiet _)).trans (.deenergise _ c)

theorem State.takeHoldFault_moves (s : State) (c : ChanId) (cause : FaultCause) : Moves s (s.takeHoldFault c cause) := by
  have h := (Moves.modChan_quiet s c (Channel.fault_quiet cause _)).trans (State.endHold_moves _ c)
  unfold State.takeHoldFault
  simp only
  split
  · exact h.trans (State.raiseAll_worked ..).moves
  · exact h

theorem State.takeJam_moves (s : State) (c : ChanId) : Moves s (s.takeJam c) := by
  unfold State.takeJam
  split
  · exact .refl
  · split
    · exact s.takeHoldFault_moves c .jam
    · exact s.changeChannel_moves c (Channel.fault_quiet ..)

theorem State.takeCoilFault_moves (s : State) (c : ChanId) (slot : FlightSlot) (cause : FaultCause) :
    Moves s (s.takeCoilFault c slot cause) :=
  s.finishStroke_moves c slot _ _ (Channel.fault_quiet cause)

/-- Every report the handler acts on (R155 to R163). -/
theorem State.handle_moves (s : State) (d : ChainId) (r : Report) : Moves s (s.handle d r) := by
  unfold State.handle
  simp only
  split
  · exact s.takeJam_moves _
  · split
    · exact s.takeStale_moves d
    · split
      · exact s.takeContact_moves ..
      · exact s.takeStale_moves d
  · split
    · exact s.takeStale_moves d
    · split
      · exact s.finishStroke_moves _ _ _ _ Channel.miss_quiet
      · exact s.takeStale_moves d
  · split
    · exact s.takeHoldFault_moves ..
    · split
      · exact s.takeCoilFault_moves ..
      · exact s.takeStale_moves d
  · split
    · exact s.takeHoldFault_moves ..
    · split
      · exact s.takeCoilFault_moves ..
      · exact s.takeStale_moves d

/-! ### Launches -/

/-- A frame placed on a chain with room, in a part with work. -/
theorem Moves.place {s : State} (d : ChainId) (f : DriveFrame) (hroom : (s.chain d).hasRoom = true) (hw : s.Working) :
    Moves s (s.modChain d (Chain.place s.now s.settings.frameTime f)) :=
  .modChain s d (Chain.place_keeps _ _ hroom) (fun _ _ => .inr (.inr hw)) fun h => .inl (Chain.place_scan .. ▸ h)

/-- The head of the timeline gone, with new members and a new sample. -/
theorem Moves.departs (s : State) {e : Entry} {rest : List Entry} (members : List Member) (m : Monitor)
    (hl : s.timeline = e :: rest) (hm : members.length ≤ s.energised.length ∨ members.length ≤ s.settings.supplyLimit) :
    Moves s ({ s with energised := members, monitor := m }.withTimeline rest) :=
  ((Move.energised members hm).run.trans (.monitor _ m)).trans
    (.withTimeline _ (.of_sublist (hl ▸ List.sublist_cons_self e rest))
      fun _ => State.working_of_timeline (hl ▸ List.cons_ne_nil e rest))

/-- A launch with a frame: the frame placed, the channel and the energised set moved, the entry gone (R124, R126). -/
theorem Moves.launch {s : State} {e : Entry} {rest : List Entry} (c : ChanId) (frame : DriveFrame)
    (f : Channel → Channel) (members : List Member) (m : Monitor) (hl : s.timeline = e :: rest)
    (hroom : (s.chain (chainOf c)).hasRoom = true) (hscan : s.scanning (chainOf c) = false)
    (h : (s.chan c).Keeps (f (s.chan c)))
    (owners : ∀ new, (f (s.chan c)).slot = some new →
      (∃ old, (s.chan c).slot = some old ∧ new.owners.length ≤ old.owners.length) ∨ new.owners = e.owners)
    (hm : members.length ≤ s.energised.length ∨ members.length ≤ s.settings.supplyLimit) :
    Moves s ({ (s.modChain (chainOf c) (Chain.place s.now s.settings.frameTime frame)).modChan c f with
      energised := members, monitor := m }.withTimeline rest) := by
  have hw : s.Working := State.working_of_timeline (by simp [hl])
  have hchan : ∀ g, (s.modChain (chainOf c) g).chan c = s.chan c := fun _ => rfl
  refine (Moves.place (chainOf c) frame hroom hw).trans ?_
  refine (Moves.modChan _ c (f := f) (by rwa [hchan]) ?_ ?_).trans ?_
  · exact fun new hn => (owners new hn).imp id fun ho => ⟨e, by simp [hl], ho⟩
  · exact fun _ => .inr ⟨State.working_of_timeline (by simp [hl]), by simpa [State.scanning] using hscan⟩
  · exact Moves.departs _ members m hl hm

/-- A new member within the supply limit, or one already there (R110). -/
theorem State.supply_members {s : State} {c : ChanId} (h : s.supplyCheck c = none) (m : Member) (hm : m.chan = c) :
    (putMember m s.energised).length ≤ s.energised.length ∨ (putMember m s.energised).length ≤ s.settings.supplyLimit := by
  subst hm
  exact (State.supplyCheck_none h).imp putMember_length_of_mem (putMember_length ..).trans

/-- A STRIKE entry launched: its channel takes its owners, within the heat limit and the supply limit (R124). -/
theorem State.launchStrike_moves {s : State} {e : Entry} {rest : List Entry} {c : ChanId} {fig : Figures} {pulse : Nat}
    {degraded : Bool} (hl : s.timeline = e :: rest) (h : s.strikeVerdict c fig = .go pulse degraded) :
    Moves s (s.launchStrike e rest c fig pulse degraded) := by
  obtain ⟨hcheck, -, -, hsupply, hheat, hroom⟩ := State.strikeVerdict_go h
  obtain ⟨hscan, -, hkind⟩ := State.channelCheck_none hcheck
  have hfits := (Channel.heatCheck_some hheat).1
  refine Moves.launch c (.fire (boardOf c) (outputOf c) (s.chan c).tag pulse) (Channel.launched _ _)
    (energiseStrike c _ s.energised) _ hl hroom hscan ⟨?_, id, id, fun _ _ => hkind⟩ ?_ ?_
  · intro hc
    simp only [Channel.launched, Channel.nextTag, slotOf] at hc ⊢
    omega
  · intro new hn
    cases hn
    exact .inr rfl
  · exact State.supply_members hsupply _ rfl

/-- A HOLD entry launched; its lift needs a chain with no scan (R126). -/
theorem State.launchHold_moves {s : State} {e : Entry} {rest : List Entry} {c : ChanId} (frame : DriveFrame)
    (hold : Option Lift) {members : List Member} (hl : s.timeline = e :: rest)
    (hcheck : s.channelCheck c .hold = none) (hroom : (s.chain (chainOf c)).hasRoom = true)
    (hm : members.length ≤ s.energised.length ∨ members.length ≤ s.settings.supplyLimit) :
    Moves s (s.launchHold e rest c frame hold members) :=
  (Moves.launch c frame (fun ch => { ch.nextTag with hold := hold }) members _ hl hroom
    (State.channelCheck_none hcheck).1 ⟨id, id, id, id⟩ (fun new hn => .inl ⟨new, hn, le_rfl⟩) hm).trans
    (State.deliverAll_worked ..).moves

/-- Every end of a presentation (R116). -/
theorem State.present_moves {s : State} {e : Entry} {rest : List Entry} (hl : s.timeline = e :: rest) :
    Moves s (s.present e rest) := by
  have hw : ∀ l : List Entry, l ≠ [] → s.Working := fun _ _ => State.working_of_timeline (by simp [hl])
  have hrest : TimelineKeeps s.settings.mergeWindow s.timeline rest := .of_sublist (by simp [hl])
  have hp := s.present_cases e rest
  generalize s.present e rest = t at hp ⊢
  cases hp with
  | mark => exact .timeline hrest (hw _) (s.completeMark_worked e rest)
  | drop code => exact .timeline hrest (hw _) (s.dropEntry_worked e rest code)
  | retime t code =>
    rcases s.retime_worked e rest t code with h | h
    · exact .timeline (hl ▸ placeAgain_keeps _ e rest t) (hw _) h
    · exact .timeline hrest (hw _) h
  | strike c fig pulse degraded _ h => exact State.launchStrike_moves hl h
  | lift c level _ _ _ h =>
    obtain ⟨hcheck, -, hsupply, hroom⟩ := State.liftVerdict_go h
    refine State.launchHold_moves _ _ hl hcheck hroom ?_
    split
    · exact .inl le_rfl
    · rename_i hdown
      exact State.supply_members (hsupply.resolve_left hdown) _ rfl
  | dropHold c _ _ _ h =>
    obtain ⟨hcheck, hroom⟩ := State.dropVerdict_go h
    exact State.launchHold_moves _ _ hl hcheck hroom (.inl (deenergise_length ..))

/-! ### Cooling, beats and passes -/

theorem State.forcedDrop_moves {s : State} {c : ChanId} {l : Lift} (h : (s.chan c).hold = some l) :
    Moves s (s.forcedDrop c l) := by
  have hw : s.Working := fun _ => .inr ⟨c, by simp [h]⟩
  unfold State.forcedDrop
  split
  · rename_i hroom
    have hdrop := ((Moves.place (chainOf c) (.holdOff (boardOf c) (outputOf c) (s.chan c).tag) hroom hw).trans
      (.modChan_quiet _ c (f := fun ch => { ch.nextTag with hold := none })
        (Channel.quiet_of_rest id id rfl id rfl fun _ => rfl))).trans (.deenergise _ c)
    simp only
    split
    · exact hdrop.trans (State.deliver_worked ..).moves
    · exact hdrop
  · exact .refl

theorem State.coolChannel_moves (s : State) (c : ChanId) : Moves s (s.coolChannel c) := by
  refine ((Moves.modChan_quiet s c (Channel.cool_quiet _)).trans ?_).trans
    (.modChan_quiet _ c (Channel.dropReadyAfter_quiet ..))
  split
  · split
    · exact State.forcedDrop_moves (by assumption)
    · exact .refl
  · exact .refl

theorem coolingEvent_moves (s : State) : Moves s (coolingEvent s) :=
  (Move.rest s.now _ s.sagLatch s.supplyLow s.monitor s.freeCount s.pending).run.trans
    (Moves.foldl State.coolChannel_moves _ _)

theorem State.crossBeat_moves (s : State) : Moves s s.crossBeat :=
  (Moves.modClock s (Clock.countBeat_keeps ..)).trans (.modPorts _ fun _ => (PortRec.tellBeat_worked ..).keeps)

theorem State.applyCue_moves (s : State) (cue : TempoCue) : Moves s (s.applyCue cue) :=
  (Moves.modClock s (Clock.startGlide_keeps ..)).trans (State.deliver_worked ..).moves

theorem State.applyDueCues_moves (s : State) : Moves s s.applyDueCues :=
  (Moves.modClock s (f := fun c => { c with cues := c.cues.filter fun x => !c.isDue x })
    (Clock.keeps_of_rest rfl rfl rfl rfl rfl (List.length_filter_le ..))).trans
    (.foldl State.applyCue_moves _ _)

theorem State.runningStep_moves (s : State) : Moves s s.runningStep := by
  have hadvance : s.clock.Keeps s.clock.advance := Clock.keeps_of_rest rfl rfl rfl rfl rfl le_rfl
  have hramp := s.clock.advance.rampStage_keeps
  refine ((Moves.modClock s (f := fun c => c.advance.rampStage)
    ⟨hramp.rate ∘ hadvance.rate, hramp.meter ∘ hadvance.meter, hramp.cues ∘ hadvance.cues⟩).trans ?_).trans
    (State.applyDueCues_moves _)
  split
  · exact State.crossBeat_moves _
  · exact .refl

theorem beatStepEvent_moves (s : State) : Moves s (beatStepEvent s) := by
  have hrearm : Moves s (s.modClock (Clock.rearm s.now)) :=
    .modClock s (Clock.keeps_of_rest rfl rfl rfl rfl rfl le_rfl)
  unfold beatStepEvent
  simp only
  split
  · exact hrearm.trans (State.runningStep_moves _)
  · exact hrearm

/-- A place at a beat below the meter (R20). -/
theorem State.place_moves (s : State) (tick : Tick) (bar : BitVec 16) {beat : Nat} (h : beat < s.clock.meter) :
    Moves s (s.place tick bar beat) :=
  (Moves.modClock s (f := fun c => { c with pos := tick ++ (0 : BitVec 32), bar := bar, beat := beat, cues := [] })
    ⟨id, fun hm => ⟨hm.1, hm.2.1, h⟩, fun _ => Nat.zero_le _⟩).trans
    (State.foldl_deliver_worked (fun cue : TempoCue => cue.owner) (fun _ => OutcomeData.plain .cueDropped none) _ _).moves

theorem syncEdgeEvent_moves (s : State) : Moves s (syncEdgeEvent s) := by
  unfold syncEdgeEvent
  split
  · exact .refl
  · rename_i w _
    have hsync : Moves s (s.modClock fun c => { c with sync := none }) :=
      .modClock s (Clock.keeps_of_rest rfl rfl rfl rfl rfl le_rfl)
    simp only
    split
    · exact hsync.trans (.modClock _ (Clock.keeps_of_rest rfl rfl rfl rfl rfl le_rfl))
    · exact hsync.trans (.modClock _ (Clock.keeps_of_rest rfl rfl rfl rfl rfl le_rfl))
    · split
      · rename_i hok
        simp only [Bool.and_eq_true, decide_eq_true_eq] at hok
        exact hsync.trans (State.place_moves _ _ _ hok.1)
      · exact hsync.trans (.modClock _ (Clock.keeps_of_rest rfl rfl rfl rfl rfl le_rfl))

/-- A move of a reading is a run of moves of the part, and leaves the SAFE line. -/
theorem ReadMove.moves {p : Port} {s t : State} (m : ReadMove p s t) (hs : s.safeLow = false) :
    Moves s t ∧ t.safeLow = false := by
  cases m with
  | work h => exact ⟨h.moves, by rw [h.rest]; exact hs⟩
  | level n => exact ⟨.modPort s p (PortRec.keeps_of_reader rfl rfl le_rfl le_rfl le_rfl), hs⟩
  | chainEnd e => exact ⟨.modPort s p (PortRec.setChainEnd_keeps _ e), hs⟩
  | take h =>
    refine ⟨State.takePhrase_moves h, ?_⟩
    unfold State.takePhrase at h
    simp only at h
    split at h
    · cases h
    · split at h
      · cases h
      · cases h
        exact hs
  | arm ref a h => exact ⟨State.arm_moves ref h (State.working_of_safeHigh hs), by rw [(s.arm_worked ref a).rest]; exact hs⟩
  | cue cue clock h => exact ⟨.modClock s (Clock.fileCue_keeps h), hs⟩

theorem State.readerPass_run {s t : State} {p : Port} (h : s.readerPass p = some t) : Moves s t := by
  have hbegin : Moves s (s.beginPass p) := .modPort s p (PortRec.beginPass_keeps ..)
  rcases State.readerPass_moves h with rfl | ⟨hs, m⟩
  · exact hbegin
  · refine hbegin.trans (m.kept (Inv := fun u => Moves (s.beginPass p) u ∧ u.safeLow = false) ?_ ⟨.refl, hs⟩).1
    exact fun u v k ⟨hu, hsafe⟩ => ⟨hu.trans (k.moves hsafe).1, (k.moves hsafe).2⟩

end Sys2Proof.Machine
end

section
/-! PROOFS. The work of every request is a run of moves. -/

namespace Sys2Proof.Machine

theorem Moves.accepted {s t : State} (h : Moves s t) : Moves s (accept t).1 := h

theorem Moves.answered {s t : State} {payload : List Byte} (h : Moves s t) : Moves s (answer t payload).1 := h

theorem portResetBody_moves (p : Port) (s : State) : Moves s (portResetBody p s).1 := by
  have hw : ∀ u : State, Moves u (u.withdrawSilently fun ref => ref.port == p) := fun u =>
    .withTimeline u (withdrawFrom_keeps ..) fun h => State.working_of_timeline fun h' => h (by rw [h']; rfl)
  have hclock : ∀ u : State, Moves u { u with clock := u.clock.forgetPort p } := fun u =>
    .modClock u (f := Clock.forgetPort p) (Clock.keeps_of_rest rfl rfl rfl rfl rfl (List.length_filter_le ..))
  exact (((Moves.modPort s p (PortRec.portReset_keeps _)).trans (hw _)).trans
    (.mapChannels _ (Channel.forgetPort_quiet p))).trans (hclock _)

theorem runStopBody_moves (p : Port) (run : Bool) (mode : Byte) (s : State) : Moves s (runStopBody p run mode s).1 := by
  unfold runStopBody
  split
  · exact .accepted (.modClock s (Clock.keeps_of_rest rfl rfl rfl rfl rfl le_rfl))
  · split
    · exact .accepted (.modClock s (Clock.keeps_of_rest rfl rfl rfl rfl rfl le_rfl))
    · exact .refl

theorem clkPlaceBody_moves (p : Port) (mode : Byte) (tick : Tick) (bar : BitVec 16) (beat : Byte) (s : State) :
    Moves s (clkPlaceBody p mode tick bar beat s).1 := by
  unfold clkPlaceBody
  split
  · exact .refl
  · rename_i hin
    simp only [Bool.or_eq_true, decide_eq_true_eq, not_or, not_le] at hin
    split
    · exact .refl
    · split
      · exact State.place_moves s tick bar hin.2
      · exact .accepted (.modClock s (Clock.keeps_of_rest rfl rfl rfl rfl rfl le_rfl))

theorem tempoCurveBody_moves (slope curvature count : BitVec 32) (s : State) :
    Moves s (tempoCurveBody slope curvature count s).1 := by
  unfold tempoCurveBody
  split
  · exact .accepted (.modClock s (Clock.keeps_of_rate (fun h => ⟨h.1, trivial⟩) rfl rfl rfl rfl))
  · exact .refl

theorem meterSetBody_moves (meter : Byte) (s : State) : Moves s (meterSetBody meter s).1 := by
  unfold meterSetBody
  split
  · rename_i hin
    rw [inRange_iff] at hin
    refine .accepted (.modClock s ⟨id, fun h => ⟨h.1, fun _ hm => ?_, h.2.2⟩, id⟩)
    cases hm
    exact hin
  · exact .refl

theorem cueSetBody_moves (p : Port) (bar : BitVec 16) (beat flags : Byte) (s : State) :
    Moves s (cueSetBody p bar beat flags s).1 := by
  unfold cueSetBody
  split
  · exact .accepted (.modPort s p (PortRec.keeps_of_rest rfl rfl rfl))
  · exact .refl

theorem beatModeBody_moves (p : Port) (mode : Byte) (s : State) : Moves s (beatModeBody p mode s).1 := by
  unfold beatModeBody
  split
  · exact .accepted (.modPort s p (PortRec.keeps_of_rest rfl rfl rfl))
  · exact .refl

/-- A channel that is not busy has a free slot and no LIFTED hold (R28). -/
theorem State.channelBusy_false {s : State} {c : ChanId} (h : s.channelBusy c = false) :
    s.channelArmed c = false ∧ (s.chan c).slot = none ∧ (s.chan c).hold = none := by
  simpa [State.channelBusy, and_assoc] using h

theorem chanSetupBody_moves (chan : Byte) (f : SetupFields) (s : State) : Moves s (chanSetupBody chan f s).1 := by
  unfold chanSetupBody
  split
  · exact .refl
  · split
    · simp only
      split
      · exact .refl
      · split
        · exact .refl
        · split
          · exact .refl
          · rename_i hbusy _
            obtain ⟨-, hslot, -⟩ := State.channelBusy_false (Bool.eq_false_iff.mpr hbusy)
            exact (Moves.modChan_quiet s _ (Channel.configured_quiet hslot _ _)).trans
              (State.settleUnlessFaulted_moves _ _)
    · exact .refl

/-- The knots that a CHAN_CURVE stores (R30). -/
theorem Channel.curve_quiet (knots : Vector KnotFields 8) (ch : Channel) :
    ch.Quiet { ch with knots := knots.map knotOfFields } where
  heat := id
  knots _ k := by simp [knotOfFields]
  cause := id
  slot := id
  owners new h := ⟨new, h, le_rfl⟩
  hold := id

theorem chanCurveBody_moves (chan : Byte) (knots : Vector KnotFields 8) (s : State) :
    Moves s (chanCurveBody chan knots s).1 := by
  unfold chanCurveBody
  split
  · simp only
    split
    · exact .refl
    · exact Moves.modChan_quiet s _ (f := fun ch => { ch with knots := knots.map knotOfFields }) (Channel.curve_quiet ..)
  · exact .refl

theorem chanReleaseBody_moves (chan : Byte) (s : State) : Moves s (chanReleaseBody chan s).1 := by
  unfold chanReleaseBody
  split
  · simp only
    split
    · have hcount : (s.chan ⟨chan.toNat, by assumption⟩).Quiet { s.chan ⟨chan.toNat, by assumption⟩ with misses := 0 } :=
        Channel.quiet_of_rest id id rfl id rfl id
      exact .accepted (.modChan_quiet s _ (hcount.trans (Channel.settle_quiet ..)))
    · exact .refl
  · exact .refl

theorem cellsWriteBody_moves (p : Port) (start : BitVec 16) (data : List Byte) (s : State) :
    Moves s (cellsWriteBody p start data s).1 := by
  unfold cellsWriteBody
  simp only
  split
  · exact .refl
  · rename_i hin
    split
    · exact .refl
    · simp only [Bool.or_eq_true, Bool.not_eq_true', decide_eq_true_eq, not_or, ne_eq, not_not] at hin
      exact .accepted (.modPort s p (PortRec.writeBytes_keeps _ (by omega)))

theorem phrasePostBody_moves (p : Port) (start : BitVec 16) (mode : Byte) (value : BitVec 32) (s : State) :
    Moves s (phrasePostBody p start mode value s).1 := by
  unfold phrasePostBody
  split
  · exact .refl
  · split
    · exact .refl
    · split
      · exact .refl
      · split
        · simp only
          split
          · exact .refl
          · split
            · exact .refl
            · exact .accepted (.modPort s p (PortRec.post_keeps (by omega) _ _ _))
        · exact .refl

theorem portStopBody_moves (p : Port) (mode : Byte) (s : State) : Moves s (portStopBody p mode s).1 := by
  unfold portStopBody
  split
  · exact .accepted (.modPort s p ((PortRec.discardQueue_keeps _).trans (PortRec.settle_worked ..).keeps))
  · exact .accepted (.modPort s p ((PortRec.stopNow_keeps ..).trans (PortRec.settle_worked ..).keeps))
  · exact ((Moves.modPort s p (PortRec.stopNow_keeps ..)).trans (State.withdraw_moves ..)).trans
      (.modPort _ p (PortRec.settle_worked ..).keeps)
  · exact .refl

theorem portGoBody_moves (p : Port) (s : State) : Moves s (portGoBody p s).1 := by
  unfold portGoBody
  split
  · exact .refl
  · split
    · exact .accepted (.modPort s p ((PortRec.errorCurrent_keeps ..).trans (PortRec.settleNow_worked ..).keeps))
    · exact .modPort s p (PortRec.settleNow_worked ..).keeps
    · exact .refl

theorem strikeBody_moves (p : Port) (chan velocity flags : Byte) (s : State) :
    Moves s (strikeBody p chan velocity flags s).1 := by
  unfold strikeBody
  split
  · split
    · exact .refl
    · split
      · exact .refl
      · rename_i hsafe
        exact State.arm_moves _ (fun e he => State.armStrike_owners he)
          (State.working_of_safeHigh (Bool.eq_false_iff.mpr hsafe))
  · exact .refl

theorem holdSetBody_moves (p : Port) (chan action level : Byte) (s : State) :
    Moves s (holdSetBody p chan action level s).1 := by
  unfold holdSetBody
  split
  · split
    · exact .refl
    · split
      · exact .refl
      · rename_i hsafe
        exact State.arm_moves _ (fun e he => State.armHold_owners he)
          (State.working_of_safeHigh (Bool.eq_false_iff.mpr hsafe))
  · exact .refl

theorem sysSetupBody_moves (f : SettingsFields) (s : State) : Moves s (sysSetupBody f s).1 := by
  unfold sysSetupBody
  split
  · exact .refl
  · split
    · exact .refl
    · rename_i hrest
      have hrest : s.atRest f.supplyLimit.toNat = true := by simpa using hrest
      simp only [State.atRest, Bool.and_eq_true, List.isEmpty_iff, Vector.all_eq_true, decide_eq_true_eq] at hrest
      obtain ⟨⟨⟨htimeline, -⟩, hchains⟩, hmembers⟩ := hrest
      exact (Move.settings (settingsOf f) htimeline (fun d => hchains d.val d.isLt) hmembers).run.trans (.monitor _ _)

/-- The start of a scan on a chain at rest: its four PINGs find room (R147, R149). -/
theorem Chain.startScan_keeps {ch : Chain} (now : StageTime) (tf : Nat) (kind : ScanKind) (h : ch.idle = true) :
    ch.Keeps tf (ch.startScan now tf kind false) where
  fits := fun ⟨_, hr⟩ => by
    obtain ⟨hqueue, hsending⟩ := Chain.idle_iff.mp h
    rw [Chain.startScan_of_atRest now tf kind hqueue hsending]
    exact ⟨by simp, hr⟩
  timed := Chain.startScan_timed now kind false

theorem chainScanBody_moves (chain : Byte) (s : State) : Moves s (chainScanBody chain s).1 := by
  unfold chainScanBody
  split
  · simp only
    split
    · exact .refl
    · split
      · exact .refl
      · rename_i hsafe hfree
        have hsafe : s.safeLow = false := Bool.eq_false_iff.mpr hsafe
        simp only [Bool.or_eq_true, List.any_eq_true, Bool.not_eq_true', not_or, not_exists, not_and,
          Bool.not_eq_true, Bool.not_eq_false] at hfree
        obtain ⟨⟨-, hbusy⟩, hidle⟩ := hfree
        rw [hsafe]
        refine .accepted (.modChain s _ (Chain.startScan_keeps s.now _ .request hidle)
          (fun _ _ => .inr (.inr (State.working_of_safeHigh hsafe))) fun _ => .inr fun c hc => ?_)
        exact (State.channelBusy_false (hbusy c (mem_chainChannels.mpr hc))).2.2
  · exact .refl

/-- The work of every request is a run of moves. -/
theorem IsBody.moves {p : Port} {body : Body} (h : IsBody p body) (s : State) : Moves s (body s).1 := by
  cases h with
  | portReset => exact portResetBody_moves p s
  | runStop run mode => exact runStopBody_moves p run mode s
  | clkPlace mode tick bar beat => exact clkPlaceBody_moves p mode tick bar beat s
  | clkRead => exact .answered (.modClock s (Clock.keeps_of_rest rfl rfl rfl rfl rfl le_rfl))
  | tempoSet tempo => exact Moves.modClock s (f := Clock.setTempo tempo.toNat) (Clock.setTempo_keeps ..)
  | tempoGlide tempo duration =>
    exact Moves.modClock s (f := Clock.startGlide tempo.toNat duration.toNat) (Clock.startGlide_keeps ..)
  | tempoCurve slope curvature count => exact tempoCurveBody_moves slope curvature count s
  | meterSet meter => exact meterSetBody_moves meter s
  | cueSet bar beat flags => exact cueSetBody_moves p bar beat flags s
  | beatMode mode => exact beatModeBody_moves p mode s
  | chanSetup chan fields => exact chanSetupBody_moves chan fields s
  | chanCurve chan knots => exact chanCurveBody_moves chan knots s
  | chanRelease chan => exact chanReleaseBody_moves chan s
  | chanRead chan => unfold chanReadBody; split <;> exact .refl
  | cellsWrite start data => exact cellsWriteBody_moves p start data s
  | cellsRead start count => unfold cellsReadBody; split <;> exact .refl
  | phrasePost start mode value => exact phrasePostBody_moves p start mode value s
  | portStop mode => exact portStopBody_moves p mode s
  | portFlush => exact .accepted (.modPort s p ((PortRec.stopNow_keeps ..).trans (PortRec.settleNow_worked ..).keeps))
  | portGo => exact portGoBody_moves p s
  | strike chan velocity flags => exact strikeBody_moves p chan velocity flags s
  | holdSet chan action level => exact holdSetBody_moves p chan action level s
  | portRead => exact .refl
  | sysSetup fields => exact sysSetupBody_moves fields s
  | sysRead => exact .refl
  | supplyAck => exact .accepted (.lines s s.supplyLow s.supplyLow)
  | chainScan chain => exact chainScanBody_moves chain s
  | chainRead chain =>
    unfold chainReadBody
    split
    · exact .answered (.modChain_quiet s _ (Chain.quiet_of_rest rfl rfl rfl id id))
    · exact .refl
  | timingRead => exact .refl
  | doneRead => exact .answered (.modPort s p (PortRec.removeOldest_keeps ..))
  | filterSet filter mark =>
    unfold filterSetBody
    split
    · split
      · exact .accepted (.modPort s p (PortRec.setFilter_keeps ..))
      · exact .refl
    · exact .refl
  | noteMask selection =>
    unfold noteMaskBody
    split
    · exact .accepted (.modPort s p (PortRec.mask_keeps ..))
    · exact .refl
  | noteEdge edges =>
    unfold noteEdgeBody
    split
    · exact .accepted (.modPort s p (PortRec.keeps_of_unit _ id id))
    · exact .refl
  | noteClear selection =>
    unfold noteClearBody
    split
    · exact .accepted (.modPort s p (PortRec.keepLatches_keeps ..))
    · exact .refl
  | noteForce selection =>
    unfold noteForceBody
    split
    · exact .accepted (.modPort s p (PortRec.force_keeps ..))
    · exact .refl
  | noteRead => exact .refl
  | refused code => exact .refl

end Sys2Proof.Machine
end

section
/-! PROOFS. The pin reset: what RESET holds, and what its release starts (R195, R62, R147, R148). -/

namespace Sys2Proof.Machine

@[simp] theorem State.reset_chan (c : ChanId) : State.reset.chan c = Channel.reset := by
  simp [State.chan, State.reset]

@[simp] theorem State.reset_port (p : Port) : State.reset.port p = PortRec.reset := by
  simp [State.port, State.reset]

@[simp] theorem State.reset_chain (d : ChainId) : State.reset.chain d = Chain.reset := by
  simp [State.chain, State.reset]

@[simp] theorem State.held_port (s : State) (p : Port) : s.held.port p = (s.port p).held := by
  simp [State.port, State.held]

@[simp] theorem State.held_chan (s : State) (c : ChanId) : s.held.chan c = Channel.reset := State.reset_chan c

@[simp] theorem State.held_chain (s : State) (d : ChainId) : s.held.chain d = Chain.reset := State.reset_chain d

@[simp] theorem State.port_ofFn (s : State) (g : Port → PortRec) (q : Port) :
    State.port { s with ports := Vector.ofFn g } q = g q := by simp [State.port]

/-- Each of the three ports changed in turn is all of them changed. -/
theorem State.foldl_modPort (g : Port → PortRec → PortRec) (s : State) :
    (List.finRange 3).foldl (fun st p => st.modPort p (g p)) s =
      { s with ports := Vector.ofFn fun p : Port => g p (s.port p) } := by
  have hports : List.finRange 3 = [0, 1, 2] := rfl
  refine State.eq_of_ports (by rw [hports]; rfl) fun q => ?_
  rw [State.port_ofFn, hports, List.foldl_cons, List.foldl_cons, List.foldl_cons, List.foldl_nil]
  match q with
  | 0 | 1 | 2 => simp [State.modPort_port]

/-- The port at the release: its pin-reset values and its first pass. -/
def PortRec.released (first : StageTime) (r : PortRec) : PortRec := { r.held with nextPass := first }

/-- The part at the release, field by field (R195). -/
theorem State.released_eq (s : State) : s.released = { s.held with
    resetLow := false, sagLatch := s.supplyLow, freeCount := s.freeCount + 3,
    ports := Vector.ofFn fun p => (s.port p).released (firstPass s.freeCount p),
    chains := Vector.replicate 4 (Chain.reset.startScan 0 20 .startUp s.safeLow) } := by
  have hports := State.foldl_modPort (fun p r => { r with nextPass := firstPass s.freeCount p }) s.held
  simp only [State.released, hports, State.held_port]
  simp only [State.held, State.reset, Vector.map_replicate]
  rfl

@[simp] theorem State.released_port (s : State) (p : Port) :
    s.released.port p = (s.port p).released (firstPass s.freeCount p) := by
  rw [State.released_eq]
  simp [State.port]

@[simp] theorem State.released_chan (s : State) (c : ChanId) : s.released.chan c = Channel.reset := by
  rw [State.released_eq]
  exact s.held_chan c

@[simp] theorem State.released_chain (s : State) (d : ChainId) :
    s.released.chain d = Chain.reset.startScan 0 20 .startUp s.safeLow := by
  rw [State.released_eq]
  simp [State.chain]

/-- The first pass comes 1 to 500 µs after the release (R62, log 3). -/
theorem firstPass_toNat (n : Nat) (p : Port) : 1 ≤ (firstPass n p).toNat ∧ (firstPass n p).toNat ≤ 500 := by
  unfold firstPass
  rw [BitVec.toNat_ofNat]
  omega

end Sys2Proof.Machine
end

section
/-! PROOFS. Every event is a run of moves, and so is every step. -/

namespace Sys2Proof.Machine

theorem unlessReset_moves {f : State → State} (h : ∀ s, Moves s (f s)) (s : State) : Moves s (unlessReset f s) := by
  unfold unlessReset
  split
  · exact .refl
  · exact h s

theorem presentationEvent_moves (s : State) : Moves s (presentationEvent s) := by
  unfold presentationEvent
  split
  · rename_i hl
    split
    · exact State.present_moves hl
    · exact .refl
  · exact .refl

theorem reportTakeEvent_moves (d : ChainId) (s : State) : Moves s (reportTakeEvent d s) := by
  unfold reportTakeEvent
  split
  · rename_i r rest hr
    split
    · refine (Moves.modChain_quiet s d ?_).trans (State.handle_moves _ d r)
      refine Chain.quiet_of_rest rfl rfl rfl (fun h => ?_) id
      rw [hr, List.length_cons] at h
      exact Nat.le_of_succ_le h
    · exact .refl
  · exact .refl

theorem deadlineEvent_moves (c : ChanId) (s : State) : Moves s (deadlineEvent c s) := by
  unfold deadlineEvent
  split
  · split
    · exact State.finishStroke_moves _ _ _ _ _ Channel.miss_quiet
    · exact .refl
  · exact .refl

theorem State.endScan_moves (d : ChainId) (s : State) : Moves s (s.endScan d) := by
  unfold State.endScan
  split
  · refine (Moves.modChain_quiet s d ?_).trans (.foldl State.settleUnlessFaulted_moves _ _)
    exact Chain.quiet_of_rest rfl rfl rfl id fun h => absurd h (by simp [Chain.endScan])
  · exact .refl

theorem State.tick_moves (s : State) : Moves s s.tick := by
  unfold State.tick
  split
  · exact .refl
  · have hforget : ∀ ch : Chain, ch.Quiet s.settings.frameTime (ch.forgetTake (s.now + 1)) := by
      intro ch
      unfold Chain.forgetTake
      split
      · split
        · exact Chain.quiet_of_rest rfl rfl rfl id id
        · exact .refl _ ch
      · exact .refl _ ch
    exact (Move.rest (s.now + 1) s.nextCooling s.sagLatch s.supplyLow s.monitor s.freeCount s.pending).run.trans
      (.mapChains _ hforget)

/-- The SAFE line stands as it stood at the release (R195). -/
theorem State.released_safeLow (s : State) : s.released.safeLow = s.safeLow := by rw [State.released_eq]; rfl

theorem resetRelease_moves (s : State) :
    Moves s (if !s.resetLow then s else if s.safeLow then s.released.enterSafe else s.released) := by
  split
  · exact .refl
  · split
    · rename_i hsafe
      have hline : { s.released with safeLow := true } = s.released := by
        rw [← hsafe, ← s.released_safeLow]
      have henter := Move.enterSafe (s := s.released)
      rw [hline] at henter
      exact Move.released.run.trans henter.run
    · exact Move.released.run

theorem safeEntry_moves (s : State) : Moves s (if s.safeLow then s else if s.resetLow then { s with safeLow := true }
    else ({ s with safeLow := true }.enterSafe).edgeAll .safe true) := by
  split
  · exact .refl
  · split
    · rename_i hreset
      exact (Move.line true (.inl hreset)).run
    · exact Move.enterSafe.run.trans (State.edgeAll_worked ..).moves

theorem safeRelease_moves (s : State) : Moves s (if !s.safeLow then s else if s.resetLow then { s with safeLow := false }
    else { s with safeLow := false }.edgeAll .safe false) := by
  have hline : Moves s { s with safeLow := false } := (Move.line false (.inr rfl)).run
  split
  · exact .refl
  · split
    · exact hline
    · exact hline.trans (State.edgeAll_worked ..).moves

theorem sagBegin_moves (s : State) : Moves s (if s.supplyLow then s else if s.resetLow then { s with supplyLow := true }
    else { s with supplyLow := true, sagLatch := true }.edgeAll .supply true) := by
  split
  · exact .refl
  · split
    · exact .lines s s.sagLatch true
    · exact (Moves.lines s true true).trans (State.edgeAll_worked ..).moves

theorem sagEnd_moves (s : State) : Moves s (if !s.supplyLow then s else if s.resetLow then { s with supplyLow := false }
    else { s with supplyLow := false }.edgeAll .supply false) := by
  split
  · exact .refl
  · split
    · exact .lines s s.sagLatch false
    · exact (Moves.lines s s.sagLatch false).trans (State.edgeAll_worked ..).moves

/-- An event that acts when its time has come. -/
theorem when_moves {b : State → Prop} [DecidablePred b] {f : State → State} (h : ∀ s, Moves s (f s)) (s : State) :
    Moves s (unlessReset (fun s => if b s then f s else s) s) := by
  refine unlessReset_moves (fun u => ?_) s
  split
  · exact h u
  · exact .refl

theorem readerPass_event_moves {s t : State} {p : Port} (h : execReaderPass p s = .next t) : Moves s t := by
  unfold execReaderPass at h
  split at h
  · cases h
    exact .refl
  · split at h
    · rename_i hp
      cases h
      exact State.readerPass_run hp
    · cases h

/-- Every event is a run of moves. -/
theorem isEvent_moves {i : Instr} {s t : State} (hi : isEvent i = true) (he : exec i s = .next t) : Moves s t := by
  have hnext : ∀ u, (Host.Outcome.next u : Result) = .next t → Moves s u → Moves s t := by
    intro u hu hm
    cases hu
    exact hm
  cases i with
  | resetAssert => exact hnext _ he Move.held.run
  | resetRelease => exact hnext _ he (resetRelease_moves s)
  | safeEntry => exact hnext _ he (safeEntry_moves s)
  | safeRelease => exact hnext _ he (safeRelease_moves s)
  | sagBegin => exact hnext _ he (sagBegin_moves s)
  | sagEnd => exact hnext _ he (sagEnd_moves s)
  | syncEdge => exact hnext _ he (unlessReset_moves syncEdgeEvent_moves s)
  | beatStep => exact hnext _ he (unlessReset_moves beatStepEvent_moves s)
  | glideSnap => exact hnext _ he (when_moves (fun u => .modClock u (Clock.rampStage_keeps _)) s)
  | curveEnd => exact hnext _ he (when_moves (fun u => .modClock u (Clock.rampStage_keeps _)) s)
  | beatoutPulseEnd =>
    exact hnext _ he (when_moves (fun u => .modClock u (Clock.keeps_of_rest rfl rfl rfl rfl rfl le_rfl)) s)
  | readerPass p => exact readerPass_event_moves he
  | presentation => exact hnext _ he (unlessReset_moves presentationEvent_moves s)
  | energisedUntilExpiry c => exact hnext _ he (when_moves (fun u => .deenergise u c) s)
  | coolingStep => exact hnext _ he (unlessReset_moves coolingEvent_moves s)
  | frameEnd d => exact hnext _ he (when_moves (fun u => .modChain_quiet u d (Chain.endFrame_quiet ..)) s)
  | reportReceive d word =>
    exact hnext _ he (unlessReset_moves (fun u => .modChain_quiet u d (Chain.receive_quiet ..)) s)
  | reportTake d => exact hnext _ he (unlessReset_moves (reportTakeEvent_moves d) s)
  | deadline c => exact hnext _ he (unlessReset_moves (deadlineEvent_moves c) s)
  | scanEnd d => exact hnext _ he (when_moves (State.endScan_moves d) s)
  | monitorWindowEnd => exact hnext _ he (when_moves (fun u => .monitor u _) s)
  | beatWindowEnd p => exact hnext _ he (when_moves (fun u => .modPort u p (PortRec.keeps_of_unit _ id id)) s)
  | _ => cases hi

/-- Every step is a run of moves. -/
theorem step_moves {s t : State} (h : step s = .next t) : Moves s t := by
  refine Kept.step (Inv := Moves s) ?_ .refl h
  exact {
    queue := fun u q n hu => hu.trans (Move.rest u.now u.nextCooling u.sagLatch u.supplyLow u.monitor n q).run
    link := fun u p f hu => hu.trans (.modPort u p (PortRec.keeps_of_rest rfl rfl rfl))
    body := fun u p body hb _ hu => hu.trans (hb.moves u)
    event := fun i u v hi hu he => hu.trans (isEvent_moves hi he)
    tick := fun u hu => hu.trans u.tick_moves }

/-- A property that every move keeps is kept by every step. -/
theorem Move.kept_by_step {Inv : State → Prop} (h : ∀ s t, Move s t → Inv s → Inv t) {s t : State} (hs : Inv s)
    (he : step s = .next t) : Inv t := (step_moves he).kept h hs

end Sys2Proof.Machine
end

section
/-! PROOFS. What every step keeps: a property of each block that its changes keep and its reset values meet, and the
invariants that speak of several blocks, move by move (O51 to O60). -/

namespace Sys2Proof.Machine

/-! ### The entry into the safe state, block by block (R131) -/

theorem withdrawFrom_all (l : List Entry) : withdrawFrom (fun _ => true) l = [] := by
  refine List.filterMap_eq_nil_iff.mpr fun e _ => ?_
  simp [Entry.without]

/-- The entry into the safe state, but for its ports. -/
theorem State.enterSafe_eq (s : State) : s.enterSafe = { s with
    timeline := [], energised := [], ports := s.enterSafe.ports,
    chains := s.chains.map (Chain.safeAll s.now s.settings.frameTime),
    channels := s.channels.map fun (ch : Channel) => { ch with hold := none } } := by
  have hrest := (s.withdraw_worked (fun _ => true) .safed).rest
  rw [withdrawFrom_all] at hrest
  unfold State.enterSafe State.modPorts
  rw [hrest]

theorem State.enterSafe_chan (s : State) (c : ChanId) : s.enterSafe.chan c = { s.chan c with hold := none } := by
  rw [s.enterSafe_eq]
  simp [State.chan]

theorem State.enterSafe_chain (s : State) (d : ChainId) :
    s.enterSafe.chain d = (s.chain d).safeAll s.now s.settings.frameTime := by
  rw [s.enterSafe_eq]
  simp [State.chain]

/-- A port withdrawn from, and then held (R131 steps 1 and 5). -/
theorem State.enterSafe_port (s : State) (p : Port) :
    s.enterSafe.port p = ((s.withdraw (fun _ => true) .safed).port p).safeHold s.now := by
  have hnow : (s.withdraw (fun _ => true) .safed).now = s.now := by
    rw [(s.withdraw_worked (fun _ => true) .safed).rest]
  rw [← hnow]
  exact State.modPorts_port _ _ p

theorem State.enterSafe_port_worked (s : State) (p : Port) : (s.port p).Worked (s.enterSafe.port p) := by
  rw [s.enterSafe_port]
  exact ((s.withdraw_worked (fun _ => true) .safed).port p).trans (PortRec.safeHold_worked ..)

/-! ### A property of a block that its changes keep and its reset values meet -/

/-- A property of the clock. -/
theorem Move.clock_kept {P : Clock → Prop} (hkeep : ∀ c c' : Clock, c.Keeps c' → P c → P c') (hreset : P Clock.reset)
    {s t : State} (m : Move s t) (h : P s.clock) : P t.clock := by
  cases m with
  | clock c hc => exact hkeep _ _ hc h
  | enterSafe => rw [State.enterSafe_eq]; exact h
  | held => exact hreset
  | released => rw [State.released_eq]; exact hreset
  | _ => exact h

/-- A property of a port. -/
theorem Move.port_kept {P : PortRec → Prop} (hkeep : ∀ r r' : PortRec, r.Keeps r' → P r → P r')
    (hreset : ∀ r : PortRec, P r.held ∧ ∀ first, P (r.released first)) {s t : State} (m : Move s t)
    (h : ∀ p, P (s.port p)) (p : Port) : P (t.port p) := by
  cases m with
  | ports ps hp => exact hkeep _ _ (hp p) (h p)
  | enterSafe => exact hkeep _ _ (State.enterSafe_port_worked _ p).keeps (h p)
  | held => rw [State.held_port]; exact (hreset _).1
  | released => rw [State.released_port]; exact (hreset _).2 _
  | _ => exact h p

/-- A property of a channel. -/
theorem Move.chan_kept {P : Channel → Prop} (hkeep : ∀ ch ch' : Channel, ch.Keeps ch' → P ch → P ch')
    (hreset : P Channel.reset) {s t : State} (m : Move s t) (h : ∀ c, P (s.chan c)) (c : ChanId) : P (t.chan c) := by
  cases m with
  | channels cs hc => exact hkeep _ _ (hc c) (h c)
  | enterSafe => rw [State.enterSafe_chan]; exact hkeep _ _ (Channel.dropHold_quiet _).toKeeps (h c)
  | held => rw [State.held_chan]; exact hreset
  | released => rw [State.released_chan]; exact hreset
  | _ => exact h c

/-! ### The invariants of single blocks -/

theorem Move.rateKept {s t : State} (m : Move s t) (h : s.RateKept) : t.RateKept :=
  m.clock_kept (P := fun c => rateInRange c.rate ∧ c.ramp.targetInRange) (fun _ _ k => k.rate)
    ⟨by unfold rateInRange; decide, trivial⟩ h

theorem Move.meterKept {s t : State} (m : Move s t) (h : s.MeterKept) : t.MeterKept :=
  m.clock_kept
    (P := fun c => meterInRange c.meter ∧ (∀ m, c.pendingMeter = some m → meterInRange m) ∧ c.beat < c.meter)
    (fun _ _ k => k.meter) ⟨by unfold meterInRange; decide, (fun _ h => absurd h (by simp [Clock.reset])), by decide⟩ h

theorem Move.memoryKept {s t : State} (m : Move s t) (h : s.MemoryKept) : t.MemoryKept :=
  m.port_kept (P := fun r => RegionOk r.mem) (fun _ _ k => k.region)
    (fun _ => ⟨⟨rfl, fun _ hx => absurd hx List.not_mem_nil⟩, fun _ => ⟨rfl, fun _ hx => absurd hx List.not_mem_nil⟩⟩) h

theorem PortRec.reset_fits : PortRec.reset.Fits := by
  simp [PortRec.Fits, PortRec.reset, Reader.reset, NoticeUnit.reset]

theorem Move.portsFit {s t : State} (m : Move s t) (h : ∀ p, (s.port p).Fits) : ∀ p, (t.port p).Fits :=
  m.port_kept (fun _ _ k => k.fits) (fun _ => ⟨PortRec.reset_fits, fun _ => PortRec.reset_fits⟩) h

theorem Move.readersKept {s t : State} (m : Move s t) (h : s.ReadersKept) : t.ReadersKept :=
  m.port_kept (P := fun r => r.reader.readingCount ≤ 1) (fun _ _ k => k.reading)
    (fun _ => ⟨Nat.zero_le 1, fun _ => Nat.zero_le 1⟩) h

theorem NoticeUnit.reset_latchesOk : NoticeUnit.reset.LatchesOk := fun i hi => by simp [NoticeUnit.reset] at hi

theorem Move.latchesKept {s t : State} (m : Move s t) (h : s.LatchesKept) : t.LatchesKept :=
  m.port_kept (P := fun r => r.unit.LatchesOk) (fun _ _ k => k.latches)
    (fun _ => ⟨NoticeUnit.reset_latchesOk, fun _ => NoticeUnit.reset_latchesOk⟩) h

theorem Move.heatKept {s t : State} (m : Move s t) (h : s.HeatKept) : t.HeatKept :=
  m.chan_kept (P := fun ch => ch.heat ≤ ch.scalars.heatLimit) (fun _ _ k => k.heat) (Nat.zero_le _) h

theorem Channel.reset_knotsOk : Channel.reset.KnotsOk := by unfold Channel.KnotsOk; decide

theorem Move.knotsKept {s t : State} (m : Move s t) (h : s.KnotsKept) : t.KnotsKept :=
  m.chan_kept (fun _ _ k => k.knots) Channel.reset_knotsOk h

theorem Move.causesKept {s t : State} (m : Move s t) (h : s.CausesKept) : t.CausesKept :=
  m.chan_kept (P := Channel.CauseOk) (fun _ _ k => k.cause) (by simp [Channel.CauseOk, Channel.reset]) h

theorem Move.slotsKept {s t : State} (m : Move s t) (h : s.SlotsKept) : t.SlotsKept :=
  m.chan_kept (P := Channel.SlotOk) (fun _ _ k => k.slot) (by simp [Channel.SlotOk, Channel.reset]) h

/-! ### The invariants of several blocks -/

/-- A timeline of a reset part is empty, and so is one that SAFE has emptied. -/
theorem Move.timeline_kept {P : Nat → List Entry → Prop} (hkeep : ∀ window l l', TimelineKeeps window l l' →
      P window l → P window l') (hempty : ∀ window, P window []) {s t : State} (m : Move s t)
    (h : P s.settings.mergeWindow s.timeline) : P t.settings.mergeWindow t.timeline := by
  cases m with
  | timeline l hl => exact hkeep _ _ _ hl h
  | settings g hnil => simp only [hnil]; exact hempty _
  | enterSafe => rw [State.enterSafe_eq]; exact hempty _
  | held => exact hempty _
  | released => rw [State.released_eq]; exact hempty _
  | _ => exact h

theorem Move.strokesKept {s t : State} (m : Move s t) (h : s.StrokesKept) : t.StrokesKept :=
  m.timeline_kept (P := fun window l => l.Pairwise (apart window)) (fun _ _ _ k => k.apart)
    (fun _ => List.Pairwise.nil) h

theorem Move.timelineFits {s t : State} (m : Move s t) (h : s.timeline.length ≤ 256) : t.timeline.length ≤ 256 :=
  m.timeline_kept (P := fun _ l => l.length ≤ 256) (fun _ _ _ k => k.length) (fun _ => Nat.zero_le _) h

theorem Move.entriesOwned {s t : State} (m : Move s t) (h : EntriesOwned s.timeline) : EntriesOwned t.timeline :=
  m.timeline_kept (P := fun _ l => EntriesOwned l) (fun _ _ _ k => k.owners)
    (fun _ _ he => absurd he List.not_mem_nil) h

/-- A slot keeps at most the owners it had, or takes those of an entry (R97, R124). -/
theorem Move.ownersKept {s t : State} (m : Move s t) (h : s.OwnersKept) : t.OwnersKept := by
  refine ⟨m.entriesOwned h.1, fun c slot hc => ?_⟩
  have hslot := h.2 c
  cases m with
  | channels cs _ hown _ =>
    rcases hown c slot hc with ⟨old, hold, hlen⟩ | ⟨e, he, ho⟩
    · exact hlen.trans (hslot old hold)
    · exact ho ▸ (h.1 e he).2
  | enterSafe => rw [State.enterSafe_chan] at hc; exact hslot slot hc
  | held => rw [State.held_chan] at hc; cases hc
  | released => rw [State.released_chan] at hc; cases hc
  | _ => exact hslot slot hc

/-- A chain at the release has its four PINGs, or nothing where SAFE is low (R147, R148). -/
theorem Chain.reset_startScan (safe : Bool) :
    Chain.Fits (Chain.reset.startScan 0 20 .startUp safe) ∧ Chain.Timed 20 (Chain.reset.startScan 0 20 .startUp safe) := by
  refine ⟨?_, Chain.startScan_timed 0 .startUp safe ⟨rfl, rfl⟩⟩
  cases safe
  · rw [Chain.startScan_of_atRest 0 20 .startUp rfl rfl]
    simp [Chain.Fits, Chain.reset]
  · simp [Chain.Fits, Chain.reset, Chain.startScan]

theorem State.released_settings (s : State) : s.released.settings = Settings.reset := by rw [State.released_eq]; rfl

theorem Move.chainsFit {s t : State} (m : Move s t) (h : ∀ d, (s.chain d).Fits) (d : ChainId) : (t.chain d).Fits := by
  cases m with
  | chains ds hd => exact (hd d).fits (h d)
  | enterSafe => rw [State.enterSafe_chain]; exact Chain.safeAll_fits (h d)
  | held => rw [State.held_chain]; exact ⟨Nat.zero_le _, Nat.zero_le _⟩
  | released => rw [State.released_chain]; exact (Chain.reset_startScan _).1
  | _ => exact h d

/-- SYS_SETUP changes Tf only while nothing is in transmission (R134). -/
theorem Move.chainsKept {s t : State} (m : Move s t) (h : s.ChainsKept) : t.ChainsKept := by
  intro d
  cases m with
  | chains ds hd => exact (hd d).timed (h d)
  | settings g _ hidle =>
    have hd := h d
    simp only [Chain.Timed, (Chain.idle_iff.mp (hidle d)).2] at hd
    simp only [Chain.Timed]
    rw [show State.chain { s with settings := g } d = s.chain d from rfl, (Chain.idle_iff.mp (hidle d)).2]
    exact hd
  | enterSafe => rw [State.enterSafe_chain, State.enterSafe_eq]; exact Chain.safeAll_timed ..
  | held => rw [State.held_chain]; exact ⟨rfl, rfl⟩
  | released => rw [State.released_chain, State.released_settings]; exact (Chain.reset_startScan _).2
  | _ => exact h d

theorem Move.supplyKept {s t : State} (m : Move s t) (h : s.SupplyKept) : t.SupplyKept := by
  cases m with
  | energised l hl => exact hl.elim (fun hlen => hlen.trans h) id
  | settings g _ _ hg => exact hg
  | enterSafe => rw [State.enterSafe_eq]; exact Nat.zero_le _
  | held => exact Nat.zero_le _
  | released => rw [State.released_eq]; exact Nat.zero_le _
  | _ => exact h

/-- A hold is lifted on a chain that is not scanned, and a scan begins on a chain with no LIFTED hold (R149, R150). -/
theorem Move.scansKept {s t : State} (m : Move s t) (h : s.ScansKept) : t.ScansKept := by
  intro c hc
  cases m with
  | channels cs _ _ hhold =>
    rcases hhold c (h c hc) with hn | ⟨-, hscan⟩
    · exact hn
    · exact absurd (hscan.symm.trans hc) Bool.false_ne_true
  | chains ds _ _ hscan => exact (hscan (chainOf c) hc).elim (h c) fun hall => hall c rfl
  | enterSafe => rw [State.enterSafe_chan]
  | held => rw [State.held_chan]; rfl
  | released => rw [State.released_chan]; rfl
  | _ => exact h c hc

/-- Under SAFE a part that meets R132 has no work, so no move gives it any. -/
theorem State.not_working {s : State} (hreset : s.resetLow = false) (hsafe : s.safeLow = true) (h : s.SafeKept) :
    ¬ s.Working := by
  obtain ⟨htimeline, hhold, -⟩ := h hreset hsafe
  exact fun hw => (hw hsafe).elim (fun hne => hne htimeline) fun ⟨c, hc⟩ => hc (hhold c)

theorem Move.safeKept {s t : State} (m : Move s t) (h : s.SafeKept) : t.SafeKept := by
  intro hreset hsafe
  cases m with
  | timeline l _ hw =>
    obtain ⟨-, hrest⟩ := h hreset hsafe
    exact ⟨not_not.mp fun hne => State.not_working (s := s) hreset hsafe h (hw hne), hrest⟩
  | channels cs _ _ hhold =>
    obtain ⟨htimeline, hdown, hqueue⟩ := h hreset hsafe
    exact ⟨htimeline, fun c => (hhold c (hdown c)).resolve_right
      fun hw => State.not_working (s := s) hreset hsafe h hw.1, hqueue⟩
  | chains ds _ hqueue _ =>
    obtain ⟨htimeline, hdown, hold⟩ := h hreset hsafe
    exact ⟨htimeline, hdown, fun d f hf => (hqueue d f hf).elim (hold d f)
      fun hf => hf.resolve_right (State.not_working (s := s) hreset hsafe h)⟩
  | line low hl =>
    rcases hl with hl | hl
    · exact absurd hreset (by simp [hl])
    · exact absurd hsafe (by simp [hl])
  | enterSafe =>
    refine ⟨by rw [State.enterSafe_eq], fun c => by rw [State.enterSafe_chan], fun d f hf => ?_⟩
    rw [State.enterSafe_chain] at hf
    exact Chain.mem_safeAll_queue hf
  | held => cases hreset
  | released =>
    rw [State.released_safeLow] at hsafe
    refine ⟨by rw [State.released_eq]; rfl, fun c => by rw [State.released_chan]; rfl, fun d f hf => ?_⟩
    rw [State.released_chain, hsafe] at hf
    exact absurd hf List.not_mem_nil
  | _ => exact h hreset hsafe

/-! ### The obligations -/

/-- Settles O51: every change of the clock keeps rate, meter and beat within their limits. -/
theorem clockStaysLegal : Obligations.ClockStaysLegal := fun _ _ hrate hmeter hstep =>
  ⟨Move.kept_by_step (fun _ _ m => m.rateKept) hrate hstep, Move.kept_by_step (fun _ _ m => m.meterKept) hmeter hstep⟩

/-- Settles O52: CELLS_WRITE alone writes, within the region. -/
theorem memoryStaysCanonical : Obligations.MemoryStaysCanonical := fun _ _ hs hstep =>
  Move.kept_by_step (fun _ _ m => m.memoryKept) hs hstep

theorem Move.capacityKept {s t : State} (m : Move s t) (h : s.CapacityKept) : t.CapacityKept := by
  obtain ⟨htimeline, hcues, hports, hchains⟩ := h
  exact ⟨m.timelineFits htimeline, m.clock_kept (P := fun c => c.cues.length ≤ 4) (fun _ _ k => k.cues)
    (Nat.zero_le _) hcues, m.portsFit hports, m.chainsFit hchains⟩

/-- Settles O53: each list grows only where it has room, and a take needs a port with no current phrase. -/
theorem capacitiesHold : Obligations.CapacitiesHold := fun _ _ hs hreaders hstep =>
  ⟨Move.kept_by_step (fun _ _ m => m.capacityKept) hs hstep,
    Move.kept_by_step (fun _ _ m => m.readersKept) hreaders hstep⟩

/-- Settles O54: the checks of a launch, the cooling step and the learning of flight keep each limit. -/
theorem budgetsHold : Obligations.BudgetsHold := fun _ _ hstep =>
  ⟨fun hs => Move.kept_by_step (fun _ _ m => m.supplyKept) hs hstep,
    fun hs => Move.kept_by_step (fun _ _ m => m.heatKept) hs hstep,
    fun hs => Move.kept_by_step (fun _ _ m => m.knotsKept) hs hstep⟩

/-- Settles O55: entries, lifts and frames but SAFE_ALL come only of work that SAFE excludes. -/
theorem safeStateHolds : Obligations.SafeStateHolds := fun _ _ hs hstep =>
  Move.kept_by_step (fun _ _ m => m.safeKept) hs hstep

/-- Settles O56: an offer that has a partner is merged or absorbed, never placed beside it. -/
theorem strokesStayApart : Obligations.StrokesStayApart := fun _ _ hs howners hstep =>
  ⟨Move.kept_by_step (fun _ _ m => m.strokesKept) hs hstep, Move.kept_by_step (fun _ _ m => m.ownersKept) howners hstep⟩

/-- Settles O57: placing, ending and discarding frames each move busy-until with the queue. -/
theorem busyUntilIsTheQueuesEnd : Obligations.BusyUntilIsTheQueuesEnd := fun _ _ hs hstep =>
  Move.kept_by_step (fun _ _ m => m.chainsKept) hs hstep

/-- Settles O58: only raised and forced sources latch, and both ask for the enable. -/
theorem latchesNeedTheirEnables : Obligations.LatchesNeedTheirEnables := fun _ _ hs hstep =>
  Move.kept_by_step (fun _ _ m => m.latchesKept) hs hstep

/-- Settles O59: the first two are kept channel by channel, the third against the scans. -/
theorem channelsStayLegal : Obligations.ChannelsStayLegal := fun _ _ hcauses hslots hscans hstep =>
  ⟨Move.kept_by_step (fun _ _ m => m.causesKept) hcauses hstep,
    Move.kept_by_step (fun _ _ m => m.slotsKept) hslots hstep,
    Move.kept_by_step (fun _ _ m => m.scansKept) hscans hstep⟩

/-- Settles O60: block by block, at the reset values of each. -/
theorem resetMeetsEveryInvariant : Obligations.ResetMeetsEveryInvariant := by
  have hclock : rateInRange Clock.reset.rate := by unfold rateInRange; decide
  have hmeter : meterInRange Clock.reset.meter := by unfold meterInRange; decide
  refine ⟨⟨hclock, trivial⟩, ⟨hmeter, (fun _ h => absurd h (by simp [State.reset, Clock.reset])), by decide⟩, fun p => ?_,
    ⟨Nat.zero_le _, Nat.zero_le _, fun p => ?_, fun d => ?_⟩, fun p => ?_, fun c => ?_, fun c => ?_, Nat.zero_le _,
    fun h => absurd h (by decide), List.Pairwise.nil, ⟨fun e he => absurd he List.not_mem_nil, fun c slot hc => ?_⟩,
    fun d => ?_, fun p => ?_, fun c => ?_, fun c => ?_, fun c _ => ?_⟩
  · rw [State.reset_port]; exact ⟨rfl, fun x hx => absurd hx List.not_mem_nil⟩
  · rw [State.reset_port]; exact PortRec.reset_fits
  · rw [State.reset_chain]; exact ⟨Nat.zero_le _, Nat.zero_le _⟩
  · rw [State.reset_port]; exact Nat.zero_le 1
  · rw [State.reset_chan]; exact Nat.zero_le _
  · rw [State.reset_chan]; exact Channel.reset_knotsOk
  · rw [State.reset_chan] at hc; cases hc
  · rw [State.reset_chain]; exact ⟨rfl, rfl⟩
  · rw [State.reset_port]; exact NoticeUnit.reset_latchesOk
  · rw [State.reset_chan]; simp [Channel.reset]
  · rw [State.reset_chan]; simp [Channel.reset]
  · rw [State.reset_chan]; rfl

end Sys2Proof.Machine
end

section
/-! PROOFS. The step, the pin reset and the links of the score ports, chapter 11: what a frame is dispatched to, and what
broken frames and start-up leave (R184 to R191, R195, R196). -/

namespace Sys2Proof.Machine

/-! ### The step (R1) and the pin reset (R195) -/

/-- Settles O1: the step is its front command's execution, by definition. -/
theorem stepRunsFrontCommand : Obligations.StepRunsFrontCommand := fun _ _ _ => rfl

theorem step_of_idle {s : State} (h : s.pending = []) : step s = idleStep s := by
  unfold step
  rw [h]

theorem State.tick_of_running {s : State} (h : s.resetLow = false) :
    s.tick = { s with now := s.now + 1, chains := s.chains.map (Chain.forgetTake (s.now + 1)) } := by
  simp [State.tick, h]

/-- A chain forgets no more than its previous take (R154, log 10). -/
theorem Chain.forgetTake_rest (now : StageTime) (ch : Chain) :
    ch.forgetTake now = { ch with lastTake := (ch.forgetTake now).lastTake } := by
  unfold Chain.forgetTake
  split
  · split <;> rfl
  · rfl

/-- Settles O2: no event is due in reset, a tick moves the stage time and the stored takes, and one due event is taken. -/
theorem idlePartLetsTimePass : Obligations.IdlePartLetsTimePass := by
  intro s hp
  refine ⟨fun hr => ?_, fun hr hdue => ?_, fun _ i hdue => ?_⟩
  · have hdue : s.dueEvents = [] := if_pos hr
    rw [step_of_idle hp, idleStep, hdue]
    simp only [State.tick, hr, if_true]
  · refine ⟨s.tick, by rw [step_of_idle hp, idleStep, hdue], ?_⟩
    rw [State.tick_of_running hr]
    refine ⟨rfl, rfl, fun d => ?_⟩
    simp only [State.chain, Fin.getElem_fin, Vector.getElem_map]
    exact Chain.forgetTake_rest ..
  · rw [step_of_idle hp, idleStep, hdue]

/-- Settles O3: `State.held`, port by port. -/
theorem resetAssertHoldsPinResetValues : Obligations.ResetAssertHoldsPinResetValues := fun s =>
  ⟨s.held, rfl, rfl, fun p => s.held_port p⟩

theorem State.withTimeline_self (s : State) : s.withTimeline s.timeline = s := by
  refine State.eq_of_ports (by rfl) fun q => ?_
  simp [State.withTimeline, NoticeUnit.judge, PortRec.modUnit]

/-- A withdrawal from an empty timeline withdraws nothing. -/
theorem State.withdraw_of_empty {s : State} (h : s.timeline = []) (takes : OwnerRef → Bool) (code : OutcomeCode) :
    s.withdraw takes code = s := by
  have hsame := s.withTimeline_self
  rw [h] at hsame
  simp [State.withdraw, withdrawnOutcomes, withdrawFrom, h, hsame]

/-- The entry into the safe state leaves an IDLE port of a part with no entries as it is. -/
theorem State.enterSafe_port_of_idle {s : State} (h : s.timeline = []) {p : Port}
    (hidle : (s.port p).reader.state = .idle) : s.enterSafe.port p = s.port p := by
  rw [s.enterSafe_port, State.withdraw_of_empty h, PortRec.safeHold, if_pos hidle]

/-- SAFE_ALL on a chain that has just been released under SAFE (R131, R148). -/
theorem Chain.safeAll_of_reset :
    (Chain.reset.startScan 0 20 .startUp true).safeAll 0 20 =
      { Chain.reset with sending := some (.safeAll, 0), busyUntil := some 20,
                         scan := some { start := 0, kind := .startUp, found := Vector.replicate 4 none,
                                        listens := Vector.replicate 4 false } } := by
  decide

theorem Chain.startScan_of_reset :
    Chain.reset.startScan 0 20 .startUp false =
      { Chain.reset with sending := some (.ping 0, 0), queue := [.ping 1, .ping 2, .ping 3], busyUntil := some 80,
                         scan := some { start := 0, kind := .startUp, found := Vector.replicate 4 none,
                                        listens := Vector.replicate 4 true } } := by
  decide

theorem exec_resetRelease {s : State} (h : s.resetLow = true) :
    exec .resetRelease s = .next (if s.safeLow then s.released.enterSafe else s.released) := by
  change Host.Outcome.next (if !s.resetLow then s else _) = _
  rw [h]
  rfl

/-- A port at the release, with its first pass (R62). -/
theorem PortRec.released_pass (first : StageTime) (r : PortRec) :
    r.released first = { PortRec.reset with link := { Link.reset with csLow := r.link.csLow },
                                            nextPass := (r.released first).nextPass } := rfl

/-- Settles O4: the released part field by field, and under SAFE what the entry into the safe state leaves of it. -/
theorem resetReleaseStartsThePart : Obligations.ResetReleaseStartsThePart := by
  intro s hr
  rw [exec_resetRelease hr]
  cases hsafe : s.safeLow with
  | false =>
    refine ⟨s.released, rfl, ?_⟩
    simp only [State.released_port, State.released_chain, hsafe]
    rw [State.released_eq]
    exact ⟨rfl, rfl, rfl, hsafe, rfl, rfl, rfl, rfl, rfl, rfl, rfl, fun c => s.held_chan c,
      fun p => ⟨PortRec.released_pass .., firstPass_toNat ..⟩,
      fun d => ⟨fun _ => Chain.startScan_of_reset, fun h => absurd h Bool.false_ne_true⟩⟩
  | true =>
    have hnow : s.released.now = 0 := by rw [State.released_eq]; rfl
    have htimeline : s.released.timeline = [] := by rw [State.released_eq]; rfl
    have hports : ∀ p, s.released.enterSafe.port p = (s.port p).released (firstPass s.freeCount p) := fun p => by
      rw [State.enterSafe_port_of_idle htimeline (by rw [State.released_port]; rfl), State.released_port]
    have hchains : ∀ d, s.released.enterSafe.chain d = (Chain.reset.startScan 0 20 .startUp true).safeAll 0 20 :=
      fun d => by
        rw [State.enterSafe_chain, State.released_chain, State.released_settings, hnow, hsafe]
        rfl
    refine ⟨s.released.enterSafe, rfl, ?_⟩
    simp only [hports, hchains, State.enterSafe_chan, State.released_chan]
    rw [State.enterSafe_eq, State.released_eq]
    exact ⟨rfl, rfl, rfl, hsafe, rfl, rfl, rfl, rfl, rfl, rfl, rfl, fun _ => rfl,
      fun p => ⟨PortRec.released_pass .., firstPass_toNat ..⟩,
      fun d => ⟨fun h => absurd h.symm Bool.false_ne_true, fun _ => Chain.safeAll_of_reset⟩⟩

/-! ### Opening and closing a link (R184, R185) -/

/-- A change of a port's link is known by what it makes of the link. -/
theorem State.modLink_congr {s : State} {p : Port} {f g : Link → Link} (h : f (s.port p).link = g (s.port p).link) :
    s.modLink p f = s.modLink p g := by
  have hports : ∀ k, s.modLink p k = { s with ports := s.ports.set p { s.port p with link := k (s.port p).link } } :=
    fun _ => rfl
  rw [hports, hports, h]

theorem State.modLink_eq_const (s : State) (p : Port) (f : Link → Link) :
    s.modLink p f = s.modLink p fun _ => ((s.modLink p f).port p).link :=
  State.modLink_congr (by rw [State.modLink, State.modPort_port_same])

theorem closeEvent_of_open {p : Port} {bytes : List Byte} {extra : BitVec 3} {s : State} (hr : s.resetLow = false)
    (ho : (s.port p).link.isOpen = true) (hne : bytes ≠ []) :
    exec (.transactionClose p bytes extra) s = .next (takeReceived p (s.modLink p (Link.closed bytes extra))) := by
  change Host.Outcome.next (closeEvent p bytes extra s) = _
  simp [closeEvent, hr, ho, hne]

/-- A close with no whole byte closes the link, and no more (R184). -/
theorem exec_transactionClose_nil (p : Port) (extra : BitVec 3) {s : State} (hr : s.resetLow = false) :
    exec (.transactionClose p [] extra) s = .next (s.modLink p
      (if (s.port p).link.isOpen then Link.closed [] extra else fun k => { k with csLow := false })) := by
  change Host.Outcome.next (closeEvent p [] extra s) = _
  unfold closeEvent
  cases ho : (s.port p).link.isOpen <;> simp [hr]

/-- Settles O5: both are changes of the link, which `Link.opened` and `Link.closed` describe. -/
theorem transactionOpensAndClosesEmpty : Obligations.TransactionOpensAndClosesEmpty := by
  intro p s hr
  refine ⟨fun hcs => ?_, fun extra => ⟨_, exec_transactionClose_nil p extra hr, ?_⟩⟩
  · change Host.Outcome.next (if s.resetLow then _ else s.modLink p Link.opened) = _
    rw [hr]
    exact congrArg Host.Outcome.next (State.modLink_congr (by simp [Link.opened, hcs]))
  · rw [State.modLink, State.modPort_port_same]
    cases ho : (s.port p).link.isOpen with
    | false => exact ⟨fun h => absurd h (by simp), rfl, rfl, rfl⟩
    | true => exact ⟨fun _ => rfl, rfl, rfl, rfl⟩

/-! ### The dispatch of a request's frame (R187, R188, R197) -/

theorem dispatch_exactly {p : Port} {kind : Byte} {n : Nat} {l : List Byte} {read body : Body}
    (h : dispatch p kind l = some (exactly n l read)) (hl : l.length = n) (hb : read = body) :
    dispatch p kind l = some body := by
  rw [h, exactly, if_pos hl, hb]

/-- The settings of a payload are those it spells. -/
theorem settingsOfBytes_payload (f : SettingsFields) : settingsOfBytes (settingsPayload f) = f := by
  simp [settingsOfBytes, settingsPayload, bytes16_eq, be16, byteAt, join16]

theorem setupOfBytes_payload (chan : Byte) (f : SetupFields) : setupOfBytes (chan :: setupPayload f) = f := by
  simp [setupOfBytes, setupPayload, bytes16_eq, be16, byteAt, join16]

theorem vector8_eq {α : Type} (v : Vector α 8) : v = #v[v[0], v[1], v[2], v[3], v[4], v[5], v[6], v[7]] := by
  ext i hi
  match i, hi with
  | 0, _ | 1, _ | 2, _ | 3, _ | 4, _ | 5, _ | 6, _ | 7, _ => rfl

theorem knotsOfBytes_payload (chan : Byte) (knots : Vector KnotFields 8) :
    knotsOfBytes (chan :: knots.toList.flatMap knotPayload) = knots ∧
      (chan :: knots.toList.flatMap knotPayload).length = 33 := by
  rw [vector8_eq knots]
  simp [knotsOfBytes, knotOfBytes, knotPayload, bytes16_eq, be16, byteAt, join16]

/-- A request but NOP is dispatched by its frame to the block that takes it as a command: fields of one byte stand as
they are, fields of several are put together again. -/
theorem dispatch_of_request {i : Instr} {p : Port} {kind : Byte} {payload : List Byte}
    (h : requestFields i = some (p, kind, payload)) (hk : kind ≠ 0) :
    ∃ body, dispatch p kind payload = some body ∧ ∀ s, exec i s = .next (takeRequest p body s) := by
  cases i with
  | nop => cases h; exact absurd rfl hk
  | clkPlace q mode tick bar beat =>
    cases h
    exact ⟨clkPlaceBody p mode tick bar beat, dispatch_exactly (dispatch_12 ..) rfl (by simp [bytes32_eq, bytes16_eq, be32, be16, byteAt, join32, join16]), fun _ => rfl⟩
  | tempoSet q tempo =>
    cases h
    exact ⟨tempoSetBody tempo, dispatch_exactly (dispatch_14 ..) rfl (by simp [bytes16_eq, be16, byteAt, join16]), fun _ => rfl⟩
  | tempoGlide q tempo duration =>
    cases h
    exact ⟨tempoGlideBody tempo duration, dispatch_exactly (dispatch_15 ..) rfl (by simp [bytes16_eq, be16, byteAt, join16]), fun _ => rfl⟩
  | tempoCurve q slope curvature n =>
    cases h
    exact ⟨tempoCurveBody slope curvature n, dispatch_exactly (dispatch_16 ..) rfl (by simp [bytes32_eq, be32, byteAt, join32]), fun _ => rfl⟩
  | cueSet q bar beat flags =>
    cases h
    exact ⟨cueSetBody p bar beat flags, dispatch_exactly (dispatch_18 ..) rfl (by simp [bytes16_eq, be16, byteAt, join16]), fun _ => rfl⟩
  | chanSetup q chan fields =>
    cases h
    exact ⟨chanSetupBody chan fields, dispatch_exactly (dispatch_20 ..) rfl (by rw [setupOfBytes_payload]; rfl), fun _ => rfl⟩
  | chanCurve q chan knots =>
    cases h
    obtain ⟨hknots, hlen⟩ := knotsOfBytes_payload chan knots
    exact ⟨chanCurveBody chan knots, dispatch_exactly (dispatch_21 ..) hlen (by rw [hknots]; rfl), fun _ => rfl⟩
  | cellsWrite q start data =>
    cases h
    refine ⟨cellsWriteBody p start data, ?_, fun _ => rfl⟩
    rw [dispatch_28]
    simp [cellsWritePayload, bytes16_eq, be16, byteAt, join16]
  | cellsRead q start n =>
    cases h
    exact ⟨cellsReadBody p start n, dispatch_exactly (dispatch_29 ..) rfl (by simp [bytes16_eq, be16, byteAt, join16]), fun _ => rfl⟩
  | phrasePost q start mode value =>
    cases h
    exact ⟨phrasePostBody p start mode value, dispatch_exactly (dispatch_30 ..) rfl (by simp [bytes32_eq, bytes16_eq, be32, be16, byteAt, join32, join16]), fun _ => rfl⟩
  | sysSetup q fields =>
    cases h
    exact ⟨sysSetupBody fields, dispatch_exactly (dispatch_40 ..) rfl (by rw [settingsOfBytes_payload]), fun _ => rfl⟩
  | noteMask q selection =>
    cases h
    exact ⟨noteMaskBody p selection, dispatch_exactly (dispatch_52 ..) rfl (by simp [bytes16_eq, be16, byteAt, join16]), fun _ => rfl⟩
  | noteClear q selection =>
    cases h
    exact ⟨noteClearBody p selection, dispatch_exactly (dispatch_54 ..) rfl (by simp [bytes16_eq, be16, byteAt, join16]), fun _ => rfl⟩
  | noteForce q selection =>
    cases h
    exact ⟨noteForceBody p selection, dispatch_exactly (dispatch_55 ..) rfl (by simp [bytes16_eq, be16, byteAt, join16]), fun _ => rfl⟩
  | _ => cases h <;> exact ⟨_, rfl, fun _ => rfl⟩

end Sys2Proof.Machine
end

section
/-! PROOFS. Transactions, chapter 11: the frame a link has received, what it is dispatched to, and what SDO carries
(R184 to R191, R196). -/

namespace Sys2Proof.Machine

/-! ### Requests and their frames (R186) -/

/-- Kind 0 is NOP's (R197). -/
theorem requestFields_zero {i : Instr} {p : Port} {payload : List Byte} (h : requestFields i = some (p, 0, payload)) :
    i = .nop p payload := by
  cases i with
  | nop => cases h; rfl
  | _ => simp [requestFields] at h

/-- The payload of a well-formed request fits a frame (R186). -/
theorem requestFields_length {i : Instr} {p : Port} {kind : Byte} {payload : List Byte}
    (h : requestFields i = some (p, kind, payload)) (hw : i.wellFormed = true) : payload.length ≤ 248 := by
  cases i with
  | nop => cases h; exact of_decide_eq_true hw
  | cellsWrite q start data =>
    cases h
    have hlen : data.length ≤ 246 := of_decide_eq_true hw
    rw [bytes16_eq, List.length_append]
    exact Nat.add_le_add_left hlen 2
  | chanCurve q chan knots => cases h; rw [(knotsOfBytes_payload chan knots).2]; decide
  | _ => cases h <;> exact Nat.le_of_ble_eq_true rfl

/-- The frame that a link holds once it has closed on one. -/
theorem closed_frame {kind : Byte} {payload : List Byte} (h : payload.length ≤ 248) (p : Port) (s : State) :
    ((s.modLink p (Link.closed (frameOf kind payload) 0)).port p).link.frame = some (kind, payload) := by
  rw [State.modLink, State.modPort_port_same]
  exact Link.frame_closed kind payload _ h

section

variable {p : Port} {kind : Byte} {payload : List Byte} {s : State}

theorem takeReceived_of_nop (h : (s.port p).link.frame = some (0, payload)) : takeReceived p s = takeNop p s := by
  simp [takeReceived, h]

theorem takeReceived_of_unknown (h : (s.port p).link.frame = some (kind, payload)) (hk : kind ≠ 0)
    (hd : dispatch p kind payload = none) : takeReceived p s = s.reply p (Reply.bare .unknown) := by
  simp only [takeReceived, h, if_neg hk, hd]

theorem takeReceived_of_request {body : Body} (h : (s.port p).link.frame = some (kind, payload)) (hk : kind ≠ 0)
    (hd : dispatch p kind payload = some body) : takeReceived p s = takeRequest p body s := by
  simp only [takeReceived, h, if_neg hk, hd]

theorem takeReceived_of_none (h : (s.port p).link.frame = none) :
    takeReceived p s = s.reply p (Reply.bare .badFrame) := by
  simp [takeReceived, h]

end

/-- Settles O7: the link holds the kind and the payload of the frame, which `dispatch_of_request` hands on. -/
theorem framesDecodeToTheirRequests : Obligations.FramesDecodeToTheirRequests := by
  intro i p bytes s hw hf hr ho
  obtain ⟨⟨q, kind, payload⟩, hfields, hframe⟩ := Option.map_eq_some_iff.mp hf
  obtain ⟨rfl, rfl⟩ : q = p ∧ frameOf kind payload = bytes := by simpa using hframe
  have hlen := requestFields_length hfields hw
  have hne : frameOf kind payload ≠ [] := List.cons_ne_nil _ _
  rw [closeEvent_of_open hr ho hne]
  by_cases hk : kind = 0
  · subst hk
    rw [requestFields_zero hfields, takeReceived_of_nop (closed_frame hlen q s)]
    rfl
  · obtain ⟨body, hbody, hexec⟩ := dispatch_of_request hfields hk
    rw [takeReceived_of_request (closed_frame hlen q s) hk hbody, hexec]

/-! ### Broken frames (R187, R188) -/

/-- A link that holds a frame has received it whole, and nothing else (R187 step 1). -/
theorem Link.frame_of_closed {k : Link} {bytes : List Byte} {extra : BitVec 3} {x : Byte × List Byte}
    (h : (k.closed bytes extra).frame = some x) :
    ∃ kind payload, extra = 0 ∧ payload.length ≤ 248 ∧ bytes = frameOf kind payload := by
  unfold Link.frame Link.closed at h
  simp only [Bool.or_eq_true, bne_iff_ne, decide_eq_true_eq] at h
  split at h
  · cases h
  · rename_i hshape
    simp only [not_or, not_not, not_lt] at hshape
    obtain ⟨⟨⟨hextra, hlen⟩, hn⟩, htotal⟩ := hshape
    split at h
    · cases h
    · rename_i hcheck
      rw [not_not] at hcheck
      have hstored : bytes.take 251 = bytes := List.take_of_length_le (by omega)
      rw [hstored] at hn htotal hcheck
      match bytes, hlen with
      | kind :: n :: rest, _ =>
        have hcount : rest.length = n.toNat + 1 := by
          have : (kind :: n :: rest).length = n.toNat + 3 := htotal
          simpa using this
        have hcrc : rest[n.toNat] = crc8 (kind :: n :: rest.take n.toNat) := by
          simpa [byteAt, List.getD, hcount] using hcheck
        refine ⟨kind, rest.take n.toNat, hextra, by simp; exact .inl hn, ?_⟩
        have hsplit : rest = rest.take n.toNat ++ [rest[n.toNat]] := by
          rw [List.take_append_getElem, List.take_of_length_le hcount.le]
        have hpayload : BitVec.ofNat 8 (rest.take n.toNat).length = n := by
          simp [hcount]
        rw [frameOf, hpayload, ← hcrc]
        simp [← hsplit]

/-- The kinds of the requests are NOP's and those of the table (R197). -/
theorem requestKinds_eq (p : Port) (l : List Byte) : requestKinds = 0 :: (requestTable p l).map Prod.fst := rfl

theorem dispatch_of_unknown {kind : Byte} (h : kind ∉ requestKinds) (p : Port) (l : List Byte) :
    kind ≠ 0 ∧ dispatch p kind l = none := by
  rw [requestKinds_eq p l, List.mem_cons, not_or] at h
  refine ⟨h.1, List.lookup_eq_none_iff.mpr fun x hx => ?_⟩
  rw [bne_iff_ne]
  exact fun hk => h.2 (List.mem_map.mpr ⟨x, hx, hk.symm⟩)

/-- No request of a kind has a payload of the length of `l`. -/
def NoSuchLength (kind : Byte) (l : List Byte) : Prop :=
  ∀ i q other, requestFields i = some (q, kind, other) → other.length ≠ l.length

theorem dispatch_refused {p : Port} {kind : Byte} {n : Nat} {l other : List Byte} {body : Body} {i : Instr}
    (hn : NoSuchLength kind l) (hi : requestFields i = some (p, kind, other)) (ho : other.length = n)
    (h : dispatch p kind l = some (exactly n l body)) : dispatch p kind l = some (refuse .range) := by
  rw [h, exactly, if_neg fun hl => hn i p other hi (ho.trans hl.symm)]

/-- A payload of a length that no request of its kind has is refused (R188): each kind but CELLS_WRITE has one length. -/
theorem dispatch_of_noSuchLength {kind : Byte} {l : List Byte} (hk : kind ∈ requestKinds) (hn : NoSuchLength kind l)
    (q : Port) : kind ≠ 0 ∧ dispatch q kind l = some (refuse .range) := by
  have hzero : kind ≠ 0 := fun h => hn (.nop q l) q l (by rw [h]; rfl) rfl
  refine ⟨hzero, ?_⟩
  simp only [requestKinds, List.mem_cons, List.not_mem_nil, or_false] at hk
  rcases hk with rfl | rfl | rfl | rfl | rfl | rfl | rfl | rfl | rfl | rfl | rfl | rfl | rfl | rfl | rfl | rfl | rfl | rfl | rfl | rfl | rfl | rfl | rfl | rfl | rfl | rfl | rfl | rfl | rfl | rfl | rfl | rfl | rfl | rfl | rfl | rfl | rfl | rfl
  · exact absurd rfl hzero
  · exact dispatch_refused (i := .portReset q) hn rfl rfl (dispatch_01 ..)
  · exact dispatch_refused (i := .clkRun q 0) hn rfl rfl (dispatch_10 ..)
  · exact dispatch_refused (i := .clkStop q 0) hn rfl rfl (dispatch_11 ..)
  · exact dispatch_refused (i := .clkPlace q 0 0 0 0) hn rfl rfl (dispatch_12 ..)
  · exact dispatch_refused (i := .clkRead q) hn rfl rfl (dispatch_13 ..)
  · exact dispatch_refused (i := .tempoSet q 0) hn rfl rfl (dispatch_14 ..)
  · exact dispatch_refused (i := .tempoGlide q 0 0) hn rfl rfl (dispatch_15 ..)
  · exact dispatch_refused (i := .tempoCurve q 0 0 0) hn rfl rfl (dispatch_16 ..)
  · exact dispatch_refused (i := .meterSet q 0) hn rfl rfl (dispatch_17 ..)
  · exact dispatch_refused (i := .cueSet q 0 0 0) hn rfl rfl (dispatch_18 ..)
  · exact dispatch_refused (i := .beatMode q 0) hn rfl rfl (dispatch_19 ..)
  · exact dispatch_refused (i := .chanSetup q 0 ⟨0, 0, 0, 0, 0, 0, 0, 0⟩) hn rfl rfl (dispatch_20 ..)
  · exact dispatch_refused (i := .chanCurve q 0 (Vector.replicate 8 ⟨0, 0⟩)) hn rfl rfl (dispatch_21 ..)
  · exact dispatch_refused (i := .chanRelease q 0) hn rfl rfl (dispatch_22 ..)
  · exact dispatch_refused (i := .chanRead q 0) hn rfl rfl (dispatch_23 ..)
  · have hlen : l.length < 2 := by
      by_contra hge
      refine hn (.cellsWrite q 0 (l.drop 2)) q _ rfl ?_
      rw [bytes16_eq, List.length_append, List.length_drop]
      simp only [List.length_cons, List.length_nil]
      omega
    rw [dispatch_28, cellsWritePayload, if_pos hlen]
  · exact dispatch_refused (i := .cellsRead q 0 0) hn rfl rfl (dispatch_29 ..)
  · exact dispatch_refused (i := .phrasePost q 0 0 0) hn rfl rfl (dispatch_30 ..)
  · exact dispatch_refused (i := .portStop q 0) hn rfl rfl (dispatch_31 ..)
  · exact dispatch_refused (i := .portFlush q) hn rfl rfl (dispatch_32 ..)
  · exact dispatch_refused (i := .portGo q) hn rfl rfl (dispatch_33 ..)
  · exact dispatch_refused (i := .strike q 0 0 0) hn rfl rfl (dispatch_34 ..)
  · exact dispatch_refused (i := .holdSet q 0 0 0) hn rfl rfl (dispatch_35 ..)
  · exact dispatch_refused (i := .portRead q) hn rfl rfl (dispatch_36 ..)
  · exact dispatch_refused (i := .sysSetup q ⟨0, 0, 0, 0, 0, 0, 0, 0, 0, 0, 0⟩) hn rfl rfl (dispatch_40 ..)
  · exact dispatch_refused (i := .sysRead q) hn rfl rfl (dispatch_41 ..)
  · exact dispatch_refused (i := .supplyAck q) hn rfl rfl (dispatch_42 ..)
  · exact dispatch_refused (i := .chainScan q 0) hn rfl rfl (dispatch_48 ..)
  · exact dispatch_refused (i := .chainRead q 0) hn rfl rfl (dispatch_49 ..)
  · exact dispatch_refused (i := .timingRead q) hn rfl rfl (dispatch_4a ..)
  · exact dispatch_refused (i := .doneRead q) hn rfl rfl (dispatch_50 ..)
  · exact dispatch_refused (i := .filterSet q 0 0) hn rfl rfl (dispatch_51 ..)
  · exact dispatch_refused (i := .noteMask q 0) hn rfl rfl (dispatch_52 ..)
  · exact dispatch_refused (i := .noteEdge q 0) hn rfl rfl (dispatch_53 ..)
  · exact dispatch_refused (i := .noteClear q 0) hn rfl rfl (dispatch_54 ..)
  · exact dispatch_refused (i := .noteForce q 0) hn rfl rfl (dispatch_55 ..)
  · exact dispatch_refused (i := .noteRead q) hn rfl rfl (dispatch_56 ..)

/-- Settles O6: a link holds a frame exactly when it received one, and the dispatch goes by kind and length. -/
theorem brokenFramesReachNoBlock : Obligations.BrokenFramesReachNoBlock := by
  intro p bytes extra s hr ho hne
  rw [closeEvent_of_open hr ho hne]
  refine ⟨fun hbroken => ?_, fun kind payload hextra hlen hbytes hunknown => ?_,
    fun kind payload hextra hlen hbytes hkind hup hn => ?_⟩
  · refine congrArg _ (takeReceived_of_none ?_)
    rw [State.modLink, State.modPort_port_same, Option.eq_none_iff_forall_not_mem]
    exact fun x hx => hbroken (Link.frame_of_closed hx)
  · subst hextra hbytes
    obtain ⟨hk, hd⟩ := dispatch_of_unknown hunknown p payload
    rw [takeReceived_of_unknown (closed_frame hlen p s) hk hd]
  · subst hextra hbytes
    obtain ⟨hk, hd⟩ := dispatch_of_noSuchLength hkind hn p
    rw [takeReceived_of_request (closed_frame hlen p s) hk hd]
    exact congrArg _ (takeRequest_ready hr hup)

/-! ### Start-up (R191, R196) -/

theorem exec_nop (p : Port) (payload : List Byte) {s : State} (h : s.resetLow = false) :
    exec (.nop p payload) s = .next (s.reply p (Reply.bare .ok)) := by
  change Host.Outcome.next (takeNop p s) = _
  rw [takeNop, h]
  rfl

/-- Settles O9: NOP's take looks at RESET alone, every other request's at start-up before its block. -/
theorem startUpAnswersOnlyNop : Obligations.StartUpAnswersOnlyNop := by
  refine ⟨fun p payload s hr => exec_nop p payload hr, fun i p kind payload s hf hk hr hup => ?_⟩
  obtain ⟨body, -, hexec⟩ := dispatch_of_request hf hk
  rw [hexec, takeRequest, hr, hup]
  rfl

end Sys2Proof.Machine
end

section
/-! PROOFS. No request's work touches a link, so what a transaction shifted out stays on SDO's record (R189). -/

namespace Sys2Proof.Machine

/-- Every port's link stands. -/
structure State.SameLinks (s t : State) : Prop where
  link : ∀ q, (t.port q).link = (s.port q).link

theorem State.SameLinks.refl (s : State) : s.SameLinks s := ⟨fun _ => rfl⟩

theorem State.SameLinks.trans {s t u : State} (h : s.SameLinks t) (k : t.SameLinks u) : s.SameLinks u :=
  ⟨fun q => (k.link q).trans (h.link q)⟩

theorem State.SameLinks.accepted {s t : State} (h : s.SameLinks t) : s.SameLinks (accept t).1 := h

theorem State.SameLinks.answered {s t : State} {payload : List Byte} (h : s.SameLinks t) :
    s.SameLinks (answer t payload).1 := h

theorem State.Worked.sameLinks {s t : State} (h : s.Worked t) : s.SameLinks t := ⟨fun q => (h.port q).link⟩

theorem State.modPort_sameLinks {f : PortRec → PortRec} (s : State) (p : Port)
    (hf : ∀ r : PortRec, (f r).link = r.link := by exact fun _ => rfl) : s.SameLinks (s.modPort p f) := by
  refine ⟨fun q => ?_⟩
  rw [State.modPort_port]
  split
  · rename_i h
    rw [hf, h]
  · rfl

theorem PortRec.stopNow_link (now : StageTime) (r : PortRec) : (r.stopNow now).link = r.link :=
  (PortRec.leaveReading_worked now (by decide) (r.modReader Reader.discardQueue)).link

theorem PortRec.errorCurrent_link (now : StageTime) (r : PortRec) : (r.errorCurrent now).link = r.link := by
  unfold PortRec.errorCurrent
  split
  · exact (PortRec.leaveReading_worked now (by decide) (r.modReader _)).link
  · rfl

theorem PortRec.settle_link (now : StageTime) (r : PortRec) : (r.settle now).link = r.link :=
  (PortRec.settle_worked now r).link

theorem PortRec.settleNow_link (now : StageTime) (r : PortRec) : (r.settleNow now).link = r.link :=
  (PortRec.settleNow_worked now r).link

theorem State.withTimeline_sameLinks (s : State) (l : List Entry) : s.SameLinks (s.withTimeline l) :=
  ⟨fun q => ((s.withTimeline_worked l).port q).link⟩

theorem State.arm_sameLinks (s : State) (ref : OwnerRef) (a : Arm) : s.SameLinks (s.arm ref a).2 :=
  ⟨fun q => ((s.arm_worked ref a).port q).link⟩

theorem State.place_sameLinks (s : State) (tick : Tick) (bar : BitVec 16) (beat : Nat) :
    s.SameLinks (s.place tick bar beat) :=
  ⟨(State.foldl_deliver_worked (fun cue : TempoCue => cue.owner) (fun _ => OutcomeData.plain .cueDropped none) _ _
    : State.Worked (s.modClock _) _).sameLinks.link⟩

theorem State.withdraw_sameLinks (s : State) (takes : OwnerRef → Bool) (code : OutcomeCode) :
    s.SameLinks (s.withdraw takes code) := ⟨fun q => ((s.withdraw_worked takes code).port q).link⟩

theorem State.modClock_sameLinks (s : State) (f : Clock → Clock) : s.SameLinks (s.modClock f) := ⟨fun _ => rfl⟩

theorem portResetBody_sameLinks (p : Port) (s : State) : s.SameLinks (portResetBody p s).1 := by
  have hports := (s.modPort_sameLinks p (f := PortRec.portReset)).trans
    (State.withTimeline_sameLinks _ (withdrawFrom (fun ref => ref.port == p) (s.modPort p PortRec.portReset).timeline))
  exact ⟨hports.link⟩

theorem portStopBody_sameLinks (p : Port) (mode : Byte) (s : State) : s.SameLinks (portStopBody p mode s).1 := by
  unfold portStopBody
  split
  · exact .accepted (s.modPort_sameLinks p (by exact fun r => PortRec.settle_link ..))
  · exact .accepted (s.modPort_sameLinks p (by exact fun r => (PortRec.settle_link ..).trans (PortRec.stopNow_link ..)))
  · exact .accepted (((s.modPort_sameLinks p (PortRec.stopNow_link s.now)).trans (State.withdraw_sameLinks ..)).trans
      (State.modPort_sameLinks _ p (PortRec.settle_link s.now)))
  · exact .refl s

/-- The work of every request leaves every link. -/
theorem IsBody.sameLinks {p : Port} {body : Body} (h : IsBody p body) (s : State) : s.SameLinks (body s).1 := by
  cases h with
  | portReset => exact portResetBody_sameLinks p s
  | runStop run mode => unfold runStopBody; split <;> [skip; split] <;> exact ⟨fun _ => rfl⟩
  | clkPlace mode tick bar beat =>
    unfold clkPlaceBody
    split
    · exact .refl s
    · split
      · exact .refl s
      · split
        · exact .accepted (s.place_sameLinks ..)
        · exact ⟨fun _ => rfl⟩
  | clkRead => exact .answered (s.modClock_sameLinks _)
  | tempoSet tempo => exact s.modClock_sameLinks (Clock.setTempo tempo.toNat)
  | tempoGlide tempo duration => exact s.modClock_sameLinks (Clock.startGlide tempo.toNat duration.toNat)
  | tempoCurve slope curvature count => unfold tempoCurveBody; split <;> exact ⟨fun _ => rfl⟩
  | meterSet meter => unfold meterSetBody; split <;> exact ⟨fun _ => rfl⟩
  | cueSet bar beat flags =>
    unfold cueSetBody
    split
    · exact .accepted (s.modPort_sameLinks p)
    · exact .refl s
  | beatMode mode =>
    unfold beatModeBody
    split
    · exact .accepted (s.modPort_sameLinks p)
    · exact .refl s
  | chanSetup chan fields => unfold chanSetupBody; simp only; (repeat' split) <;> exact ⟨fun _ => rfl⟩
  | chanCurve chan knots => unfold chanCurveBody; simp only; (repeat' split) <;> exact ⟨fun _ => rfl⟩
  | chanRelease chan => unfold chanReleaseBody; simp only; (repeat' split) <;> exact ⟨fun _ => rfl⟩
  | chanRead chan => unfold chanReadBody; split <;> exact ⟨fun _ => rfl⟩
  | cellsWrite start data =>
    unfold cellsWriteBody
    simp only
    split
    · exact .refl s
    · split
      · exact .refl s
      · exact .accepted (s.modPort_sameLinks p)
  | cellsRead start count => unfold cellsReadBody; split <;> exact ⟨fun _ => rfl⟩
  | phrasePost start mode value =>
    unfold phrasePostBody
    split
    · exact .refl s
    · split
      · exact .refl s
      · split
        · exact .refl s
        · split
          · simp only
            split
            · exact .refl s
            · split
              · exact .refl s
              · exact .accepted (s.modPort_sameLinks p)
          · exact .refl s
  | portStop mode => exact portStopBody_sameLinks p mode s
  | portFlush =>
    exact .accepted (s.modPort_sameLinks p (by exact fun r => (PortRec.settleNow_link ..).trans (PortRec.stopNow_link ..)))
  | portGo =>
    unfold portGoBody
    split
    · exact .refl s
    · split
      · exact .accepted (s.modPort_sameLinks p (by exact fun r => (PortRec.settleNow_link ..).trans (PortRec.errorCurrent_link ..)))
      · exact .accepted (s.modPort_sameLinks p (by exact fun r => PortRec.settleNow_link ..))
      · exact .refl s
  | strike chan velocity flags =>
    unfold strikeBody
    split
    · split
      · exact .refl s
      · split
        · exact .refl s
        · exact State.arm_sameLinks ..
    · exact .refl s
  | holdSet chan action level =>
    unfold holdSetBody
    split
    · split
      · exact .refl s
      · split
        · exact .refl s
        · exact State.arm_sameLinks ..
    · exact .refl s
  | portRead => exact .refl s
  | sysSetup fields => unfold sysSetupBody; (repeat' split) <;> exact ⟨fun _ => rfl⟩
  | sysRead => exact .refl s
  | supplyAck => exact ⟨fun _ => rfl⟩
  | chainScan chain => unfold chainScanBody; simp only; (repeat' split) <;> exact ⟨fun _ => rfl⟩
  | chainRead chain => unfold chainReadBody; split <;> exact ⟨fun _ => rfl⟩
  | timingRead => exact .refl s
  | doneRead => exact .answered (s.modPort_sameLinks p)
  | filterSet filter mark =>
    unfold filterSetBody
    split
    · split
      · exact .accepted (s.modPort_sameLinks p)
      · exact .refl s
    · exact .refl s
  | noteMask selection =>
    unfold noteMaskBody
    split
    · exact .accepted (s.modPort_sameLinks p)
    · exact .refl s
  | noteEdge edges =>
    unfold noteEdgeBody
    split
    · exact .accepted (s.modPort_sameLinks p)
    · exact .refl s
  | noteClear selection =>
    unfold noteClearBody
    split
    · exact .accepted (s.modPort_sameLinks p)
    · exact .refl s
  | noteForce selection =>
    unfold noteForceBody
    split
    · exact .accepted (s.modPort_sameLinks p)
    · exact .refl s
  | noteRead => exact .refl s
  | refused code => exact .refl s

/-- A reply waits in the buffer; what SDO carried stays (R189). -/
theorem State.reply_sdo (s : State) (p : Port) (r : Reply) : ((s.reply p r).port p).link.sdo = (s.port p).link.sdo := by
  rw [State.reply, State.modPort_port_same]

theorem takeRequest_sdo {p : Port} {body : Body} (h : IsBody p body) (s : State) :
    ((takeRequest p body s).port p).link.sdo = (s.port p).link.sdo := by
  rcases takeRequest_cases p body s with ⟨-, e⟩ | ⟨-, -, e⟩ | ⟨-, -, e⟩ <;> rw [e]
  · exact State.reply_sdo ..
  · rw [State.reply_sdo, (h.sameLinks s).link p]

theorem takeReceived_sdo (p : Port) (s : State) : ((takeReceived p s).port p).link.sdo = (s.port p).link.sdo := by
  unfold takeReceived
  split
  · exact State.reply_sdo ..
  · split
    · unfold takeNop
      split
      · rfl
      · exact State.reply_sdo ..
    · split
      · exact State.reply_sdo ..
      · rename_i hd
        exact takeRequest_sdo (dispatch_isBody hd) s

/-- A transaction leaves on SDO's record a byte of the waiting reply for each byte clocked in (R189). -/
theorem exec_transactionClose_sdo (p : Port) (bytes : List Byte) (extra : BitVec 3) {s : State} (hr : s.resetLow = false)
    (ho : (s.port p).link.isOpen = true) : ∃ t, exec (.transactionClose p bytes extra) s = .next t ∧
      (t.port p).link.sdo = (List.range bytes.length).map (byteAt (replyBytes (s.port p).link.reply)) := by
  by_cases hne : bytes = []
  · refine ⟨_, by rw [hne, exec_transactionClose_nil p extra hr], ?_⟩
    rw [State.modLink, State.modPort_port_same, if_pos ho, hne]
    rfl
  · refine ⟨_, closeEvent_of_open hr ho hne, ?_⟩
    rw [takeReceived_sdo, State.modLink, State.modPort_port_same]
    rfl

/-- Settles O8: the byte at each place is that of the reply's frame, or 00 past its end and where no reply waited. -/
theorem repliesShiftOutDuringTheTransaction : Obligations.RepliesShiftOutDuringTheTransaction := by
  intro p bytes extra s hr ho
  obtain ⟨t, ht, hsdo⟩ := exec_transactionClose_sdo p bytes extra hr ho
  refine ⟨t, ht, by simp [hsdo], fun hreply i hi => ?_, fun r hreply i hi => ?_⟩ <;> rw [hsdo, hreply]
  · simp [hi, replyBytes, byteAt]
  · simp [hi, replyBytes, byteAt]

end Sys2Proof.Machine
end

section
/-! PROOFS. The beat clock, chapter 01: run, stop, place, meter and cue requests (R9, R10, R18 to R20), and the beat step
with its ramps, crossings and cues (R1, R4 to R8, R13). -/

namespace Sys2Proof.Machine

/-! ### Run and stop (R18) -/

theorem exec_runStop_now (p : Port) {s : State} (h : s.Taking) :
    exec (.clkRun p 0) s = .next ((s.modClock fun c => { c with running := true }).reply p (Reply.bare .ok)) ∧
      exec (.clkStop p 0) s = .next ((s.modClock fun c => { c with running := false }).reply p (Reply.bare .ok)) :=
  ⟨exec_of_taking (body := runStopBody p true 0) rfl h, exec_of_taking (body := runStopBody p false 0) rfl h⟩

theorem exec_runStop_atSync (p : Port) {s : State} (h : s.Taking) :
    exec (.clkRun p 1) s = .next ((s.modClock (Clock.await p .run)).reply p (Reply.bare .ok)) ∧
      exec (.clkStop p 1) s = .next ((s.modClock (Clock.await p .stop)).reply p (Reply.bare .ok)) :=
  ⟨exec_of_taking (body := runStopBody p true 1) rfl h, exec_of_taking (body := runStopBody p false 1) rfl h⟩

theorem byte_ne_of_lt {x y : Byte} (h : x.toNat < y.toNat) : y ≠ x := fun he => absurd h (by simp [he])

theorem runStopBody_outOfRange {mode : Byte} (hm : 1 < mode.toNat) (p : Port) (run : Bool) (s : State) :
    runStopBody p run mode s = refuse .range s := by
  have hzero : mode ≠ 0 := byte_ne_of_lt (Nat.zero_lt_of_lt hm)
  have hone : mode ≠ 1 := byte_ne_of_lt hm
  rw [runStopBody, if_neg hzero, if_neg hone]

/-- Settles O12: by the mode. -/
theorem runAndStopRequests : Obligations.RunAndStopRequests := fun p s h =>
  ⟨(exec_runStop_now p h).1, (exec_runStop_now p h).2, (exec_runStop_atSync p h).1, (exec_runStop_atSync p h).2,
    fun mode hm => ⟨exec_of_refused (body := runStopBody p true mode) rfl h (runStopBody_outOfRange hm p true s),
      exec_of_refused (body := runStopBody p false mode) rfl h (runStopBody_outOfRange hm p false s)⟩⟩

/-! ### A place (R14, R20) -/

/-- Every cue of the list dropped on its owner, in list order (R14). -/
def State.dropCues (s : State) : State :=
  s.clock.cues.foldl (fun st x => st.deliver x.owner (OutcomeData.plain .cueDropped none)) s

/-- A place sets the clock, and changes the ports by the cues it drops. -/
theorem State.place_eq (s : State) (tick : Tick) (bar : BitVec 16) (beat : Nat) :
    s.place tick bar beat =
      { s with clock := { s.clock with pos := tick ++ (0 : BitVec 32), bar := bar, beat := beat, cues := [] },
               ports := s.dropCues.ports } := by
  rw [State.place, State.foldl_deliver_eq (fun x : TempoCue => x.owner)]
  congr 1
  exact State.foldl_deliver_ports (fun x : TempoCue => x.owner) _ _ rfl rfl

theorem State.place_port (s : State) (tick : Tick) (bar : BitVec 16) (beat : Nat) (q : Port) :
    (s.place tick bar beat).port q = s.dropCues.port q := by
  rw [State.place_eq]
  rfl

theorem State.dropCues_worked (s : State) : s.Worked s.dropCues :=
  State.foldl_deliver_worked (fun x : TempoCue => x.owner) _ _ s

/-- The ports after a reply depend on the ports alone. -/
theorem State.reply_ports {s t : State} (h : s.ports = t.ports) (p : Port) (r : Reply) :
    (s.reply p r).ports = (t.reply p r).ports := by
  simp only [State.reply, State.modPort, h]

theorem State.reply_port (s : State) (p : Port) (r : Reply) (q : Port) :
    (s.reply p r).port q = { s.port q with link := ((s.reply p r).port q).link } := by
  rw [State.reply, State.modPort_port]
  split
  · rename_i h
    rw [h]
  · rfl

theorem State.reply_link (s : State) (p : Port) (r : Reply) :
    ((s.reply p r).port p).link = { (s.port p).link with reply := some r } := by
  rw [State.reply, State.modPort_port_same]

theorem exec_clkPlace {p : Port} {beat : Byte} {s : State} (h : s.Taking) (hbeat : beat.toNat < s.clock.meter)
    (hfree : s.clockShared = false) (tick : Tick) (bar : BitVec 16) :
    exec (.clkPlace p 0 tick bar beat) s = .next ((s.place tick bar beat.toNat).reply p (Reply.bare .ok)) ∧
      exec (.clkPlace p 1 tick bar beat) s =
        .next ((s.modClock (Clock.await p (.place tick bar beat.toNat))).reply p (Reply.bare .ok)) := by
  refine ⟨?_, ?_⟩
  · rw [exec_of_taking (body := clkPlaceBody p 0 tick bar beat) rfl h]
    simp [clkPlaceBody, hfree, not_le.mpr hbeat, accept]
  · rw [exec_of_taking (body := clkPlaceBody p 1 tick bar beat) rfl h]
    simp [clkPlaceBody, hfree, not_le.mpr hbeat, accept]

/-- Settles O13: the place itself is `State.place_eq`; the reply touches the link of its port alone. -/
theorem placeRequests : Obligations.PlaceRequests := by
  intro p tick bar beat s h hbeat hfree
  obtain ⟨hnow, hsync⟩ := exec_clkPlace (p := p) h hbeat hfree tick bar
  refine ⟨⟨_, hnow, ?_, ?_, ?_, ?_, fun hcues q => ?_, fun q => ?_⟩, hsync⟩
  · rw [State.reply_clock, State.place_eq]
  · rw [State.place_eq]
    rfl
  · rw [State.place_eq]
    exact State.reply_ports rfl p _
  · rw [State.reply_link, State.place_port, (s.dropCues_worked.port p).link]
  · rw [State.reply_port, State.place_port, State.dropCues, hcues, List.foldl_nil]
  · have hwork := s.dropCues_worked.port q
    rw [State.reply_port, State.place_port]
    exact ⟨hwork.mem, hwork.queue⟩

/-! ### The SYNC edge (R19) -/

theorem exec_syncEdge {s : State} (hr : s.resetLow = false) : exec .syncEdge s = .next (syncEdgeEvent s) :=
  congrArg Host.Outcome.next (unlessReset_running hr)

/-- Settles O14: by the action that waits, a PLACE judged again as `syncEdgeEvent` judges it. -/
theorem syncEdgeAppliesThePendingAction : Obligations.SyncEdgeAppliesThePendingAction := by
  intro s hr
  rw [exec_syncEdge hr]
  refine ⟨fun hs => ?_, fun p hs => ?_, fun p hs => ?_, fun p tick bar beat hs => ⟨fun hno => ?_, fun hbeat hfree => ?_⟩⟩
  · simp only [syncEdgeEvent, hs]
  · simp only [syncEdgeEvent, hs]
    rfl
  · simp only [syncEdgeEvent, hs]
    rfl
  · have hfails : ¬ ((beat < s.clock.meter && !s.clockShared) = true) := by
      rw [Bool.and_eq_true, decide_eq_true_eq, Bool.not_eq_true', ← Bool.not_eq_true]
      exact fun ⟨hb, hf⟩ => hno.elim (fun hm => absurd hb hm.not_gt) hf
    simp only [syncEdgeEvent, hs]
    exact congrArg _ (if_neg hfails)
  · have hstands : (beat < s.clock.meter && !s.clockShared) = true := by simp [hbeat, hfree]
    refine ⟨(s.modClock fun c => { c with sync := none }).place tick bar beat, ?_, ?_, ?_⟩
    · simp only [syncEdgeEvent, hs]
      exact congrArg _ (if_pos hstands)
    · rw [State.place_eq]
      rfl
    · rw [State.place_eq]
      exact State.foldl_deliver_ports (fun x : TempoCue => x.owner) _ _ rfl rfl

/-! ### Meter, cue match and beat mode (R9, R10) -/

theorem exec_meterSet (p : Port) (m : Byte) {s : State} (h : s.Taking) :
    exec (.meterSet p m) s =
      if 1 ≤ m.toNat ∧ m.toNat ≤ 16 then
        .next ((s.modClock fun c => { c with pendingMeter := some m.toNat }).reply p (Reply.bare .ok))
      else .next (s.reply p (Reply.bare .range)) := by
  rw [exec_of_taking (body := meterSetBody m) rfl h, meterSetBody]
  simp only [inRange_iff]
  split <;> rfl

theorem exec_cueSet (p : Port) (bar : BitVec 16) (beat flags : Byte) {s : State} (h : s.Taking) :
    exec (.cueSet p bar beat flags) s =
      if flags.toNat < 8 ∧ (flags.getLsbD 2 = true ∨ beat.toNat ≤ 15) then
        .next ((s.modPort p fun r =>
          { r with cue := { bar := if flags.getLsbD 1 then none else some bar,
                            beat := if flags.getLsbD 2 then none else some beat.toNat,
                            enabled := flags.getLsbD 0 } }).reply p (Reply.bare .ok))
      else .next (s.reply p (Reply.bare .range)) := by
  rw [exec_of_taking (body := cueSetBody p bar beat flags) rfl h, cueSetBody]
  simp only [Bool.and_eq_true, Bool.or_eq_true, decide_eq_true_eq]
  split <;> rfl

/-- Settles O17: by the ranges of the two requests, and by the code of the mode. -/
theorem meterAndCueRequests : Obligations.MeterAndCueRequests := by
  refine fun p s h => ⟨fun m hlow hhigh => ?_, fun m hm => ?_, fun bar beat flags hout => ?_,
    fun bar beat flags hflags hbeat => ?_, exec_of_taking (body := beatModeBody p 0) rfl h,
    exec_of_taking (body := beatModeBody p 1) rfl h, exec_of_taking (body := beatModeBody p 2) rfl h⟩
  · rw [exec_meterSet p m h, if_pos ⟨hlow, hhigh⟩]
  · have hout : ¬(1 ≤ m.toNat ∧ m.toNat ≤ 16) := by
      rcases hm with rfl | hm
      · decide
      · omega
    rw [exec_meterSet p m h, if_neg hout]
  · have hbad : ¬(flags.toNat < 8 ∧ (flags.getLsbD 2 = true ∨ beat.toNat ≤ 15)) := by
      rcases hout with hflags | ⟨hany, hbeat⟩
      · omega
      · exact fun hok => hok.2.elim (fun ht => Bool.false_ne_true (hany.symm.trans ht)) hbeat.not_ge
    rw [exec_cueSet p bar beat flags h, if_neg hbad]
  · rw [exec_cueSet p bar beat flags h, if_pos ⟨hflags, hbeat⟩]

/-! ### The ramp stage (R6, R7) -/

theorem Clock.rampStage_none {c : Clock} (h : c.ramp = .none) : c.rampStage = c := by
  simp [Clock.rampStage, h]

/-- A ramp stage leaves the position. -/
theorem Clock.rampStage_pos (c : Clock) : c.rampStage.pos = c.pos := by rw [c.rampStage_rest]

theorem Clock.rampStage_tick (c : Clock) : c.rampStage.tick = c.tick := by rw [Clock.tick, c.rampStage_pos, Clock.tick]

/-- A ramp moves the clock by a slope. -/
def Clock.HoldsSlope (c : Clock) (slope : Int) (left : Nat) : Prop :=
  (∃ target, c.ramp = .glide target slope left) ∨ ∃ curvature, c.ramp = .curve slope curvature left

theorem Clock.rampStage_below {c : Clock} {slope : Int} {left : Nat} (h : c.HoldsSlope slope left)
    (hw : (c.rate.toNat : Int) + slope < 137438954) :
    c.rampStage = { c with rate := 137438954, ramp := .none, clamped := true } := by
  rcases h with ⟨target, h⟩ | ⟨curvature, h⟩ <;> simp only [Clock.rampStage, h] <;> exact if_pos hw

theorem Clock.rampStage_above {c : Clock} {slope : Int} {left : Nat} (h : c.HoldsSlope slope left)
    (hw : 4123168604 < (c.rate.toNat : Int) + slope) :
    c.rampStage = { c with rate := 4123168604, ramp := .none, clamped := true } := by
  have hlow : ¬ (c.rate.toNat : Int) + slope < (wMin : Nat) := by rw [wMin]; omega
  rcases h with ⟨target, h⟩ | ⟨curvature, h⟩ <;> simp only [Clock.rampStage, h, if_neg hlow] <;> exact if_pos hw

/-- A glide within the limits lands on its target, or goes on. -/
theorem Clock.rampStage_glide {c : Clock} {target : BitVec 32} {slope : Int} {left : Nat}
    (h : c.ramp = .glide target slope left) (hlow : 137438954 ≤ (c.rate.toNat : Int) + slope)
    (hhigh : (c.rate.toNat : Int) + slope ≤ 4123168604) :
    c.rampStage = if left ≤ 1 then { c with rate := target, ramp := .none }
      else { c with rate := BitVec.ofNat 32 ((c.rate.toNat : Int) + slope).toNat,
                    ramp := .glide target slope (left - 1) } := by
  have hmin : ¬ (c.rate.toNat : Int) + slope < (wMin : Nat) := by rw [wMin]; omega
  have hmax : ¬ ((wMax : Nat) : Int) < (c.rate.toNat : Int) + slope := by rw [wMax]; omega
  simp only [Clock.rampStage, h, if_neg hmin, if_neg hmax]

theorem Clock.rampStage_curve {c : Clock} {slope curvature : Int} {left : Nat} (h : c.ramp = .curve slope curvature left)
    (hlow : 137438954 ≤ (c.rate.toNat : Int) + slope) (hhigh : (c.rate.toNat : Int) + slope ≤ 4123168604) :
    c.rampStage = if left ≤ 1 then
        { c with rate := BitVec.ofNat 32 ((c.rate.toNat : Int) + slope).toNat, ramp := .none }
      else { c with rate := BitVec.ofNat 32 ((c.rate.toNat : Int) + slope).toNat,
                    ramp := .curve (max (-2147483648) (min 2147483647 (slope + curvature))) curvature (left - 1) } := by
  have hmin : ¬ (c.rate.toNat : Int) + slope < (wMin : Nat) := by rw [wMin]; omega
  have hmax : ¬ ((wMax : Nat) : Int) < (c.rate.toNat : Int) + slope := by rw [wMax]; omega
  simp only [Clock.rampStage, h, if_neg hmin, if_neg hmax]

/-! ### The beat step (R1, R4) -/

@[simp] theorem atOrBefore_self (t : StageTime) : atOrBefore t t = true := by simp [atOrBefore]

/-- The position and the timer after a running step at its time, before its ramp stage. -/
def Clock.stepped (now : StageTime) (c : Clock) : Clock :=
  { c with tB := now, nextBeat := now + 500, pos := c.pos + c.rate.setWidth 64 }

theorem Clock.rearm_due {now : StageTime} {c : Clock} (h : c.nextBeat = now) :
    c.rearm now = { c with tB := now, nextBeat := now + 500 } := by
  simp only [Clock.rearm, h, atOrBefore_self, if_true]
  rfl

theorem Clock.advance_rearm_due {now : StageTime} {c : Clock} (h : c.nextBeat = now) :
    (c.rearm now).advance = c.stepped now := by
  rw [Clock.rearm_due h]
  rfl

theorem exec_beatStep {s : State} (hr : s.resetLow = false) : exec .beatStep s = .next (beatStepEvent s) :=
  congrArg Host.Outcome.next (unlessReset_running hr)

theorem beatStepEvent_running {s : State} (h : s.clock.running = true) :
    beatStepEvent s = (s.modClock (Clock.rearm s.now)).runningStep := if_pos h

/-- A running step at its time that makes no crossing: its ramp stage, then its due cues. -/
theorem exec_beatStep_running {s : State} (hr : s.resetLow = false) (hrun : s.clock.running = true)
    (hdue : s.clock.nextBeat = s.now)
    (hcross : crosses (s.clock.pos.extractLsb' 32 32) ((s.clock.pos + s.clock.rate.setWidth 64).extractLsb' 32 32) = false) :
    exec .beatStep s = .next (s.modClock fun _ => (s.clock.stepped s.now).rampStage).applyDueCues := by
  have hclock : (s.modClock (Clock.rearm s.now)).modClock (fun c => c.advance.rampStage) =
      s.modClock fun _ => (s.clock.stepped s.now).rampStage := by
    simp only [State.modClock, Clock.advance_rearm_due hdue]
  have hno : ¬ crosses (s.clock.rearm s.now).tick ((s.clock.stepped s.now).rampStage.tick) = true := by
    rw [Clock.rampStage_tick, Bool.not_eq_true]
    exact hcross
  rw [exec_beatStep hr, beatStepEvent_running hrun, State.runningStep, hclock]
  exact congrArg (fun u : State => Host.Outcome.next u.applyDueCues) (if_neg hno)

/-- With no cue on the list none is applied. -/
theorem State.applyDueCues_of_none {s : State} (h : s.clock.cues = []) : s.applyDueCues = s := by
  have hclock : (s.modClock fun c => { c with cues := c.cues.filter fun x => !c.isDue x }) = s := by
    simp only [State.modClock, h, List.filter_nil]
    rw [← h]
  rw [State.applyDueCues, hclock, h]
  rfl

/-- A running step at its time with no crossing and no cue moves the clock alone. -/
theorem exec_beatStep_of_no_cues {s : State} (hr : s.resetLow = false) (hrun : s.clock.running = true)
    (hdue : s.clock.nextBeat = s.now) (hcues : s.clock.cues = [])
    (hcross : crosses (s.clock.pos.extractLsb' 32 32) ((s.clock.pos + s.clock.rate.setWidth 64).extractLsb' 32 32) = false) :
    exec .beatStep s = .next { s with clock := (s.clock.stepped s.now).rampStage } := by
  rw [exec_beatStep_running hr hrun hdue hcross, State.applyDueCues_of_none]
  · rfl
  · rw [State.modClock_clock, Clock.rampStage_rest]
    exact hcues

/-- Settles O18: with no ramp the ramp stage leaves the stepped clock, whose tick judges the cues. -/
theorem beatStepsAdvanceThePosition : Obligations.BeatStepsAdvanceThePosition := by
  intro s hr hdue
  refine ⟨fun hstop => ?_, fun hrun hramp hcues hcross => ?_, fun tick htick hrun hramp hcross => ?_⟩
  · have hevent : beatStepEvent s = s.modClock (Clock.rearm s.now) := if_neg (by simp [Clock.rearm, hstop])
    rw [exec_beatStep hr, hevent]
    simp only [State.modClock, Clock.rearm_due hdue]
  · rw [exec_beatStep_of_no_cues hr hrun hdue hcues hcross,
      Clock.rampStage_none (c := s.clock.stepped s.now) hramp]
    rfl
  · subst htick
    rw [exec_beatStep_running hr hrun hdue hcross, Clock.rampStage_none (c := s.clock.stepped s.now) hramp]
    rfl

/-- Settles O20: a step's clock is the ramp stage of the stepped clock, case by case of the slope and the steps left. -/
theorem rampsEndAtTheirLastStep : Obligations.RampsEndAtTheirLastStep := by
  intro s hr hrun
  refine ⟨fun target slope left hramp hleft hlow hhigh => ?_, fun slope curvature left hramp hleft hlow hhigh => ?_,
    fun slope w left stepped hdue hcues hcross hw hstepped => ?_⟩
  · have hends : s.clock.glideEnds = true := by simp [Clock.glideEnds, hramp, hrun, hleft]
    change Host.Outcome.next (unlessReset _ s) = _
    rw [unlessReset_running hr, if_pos hends]
    simp only [State.modClock, Clock.rampStage_glide hramp hlow hhigh, if_pos hleft]
  · have hends : s.clock.curveEnds = true := by simp [Clock.curveEnds, hramp, hrun, hleft]
    change Host.Outcome.next (unlessReset _ s) = _
    rw [unlessReset_running hr, if_pos hends]
    simp only [State.modClock, Clock.rampStage_curve hramp hlow hhigh, if_pos hleft]
  · rw [exec_beatStep_of_no_cues hr hrun hdue hcues hcross]
    have hclock : s.clock.stepped s.now = stepped := hstepped.symm
    have hrate : s.clock.rate = stepped.rate := by rw [hstepped]
    have hramp : s.clock.ramp = stepped.ramp := by rw [hstepped]
    rw [hclock, hramp]
    rw [hrate] at hw
    subst hw
    refine ⟨fun target hglide => ⟨fun hlow hhigh hleft => ?_, fun hlow hhigh hleft => ?_⟩,
      fun curvature hcurve => ⟨fun hlow hhigh hleft => ?_, fun hlow hhigh hleft => ?_⟩,
      fun hholds => ⟨fun hlow => ?_, fun hhigh => ?_⟩⟩
    · rw [Clock.rampStage_glide hglide hlow hhigh, if_neg hleft.not_ge]
    · rw [Clock.rampStage_glide hglide hlow hhigh, if_pos hleft]
    · rw [Clock.rampStage_curve hcurve hlow hhigh, if_neg hleft.not_ge]
      norm_num
    · rw [Clock.rampStage_curve hcurve hlow hhigh, if_pos hleft]
    · rw [Clock.rampStage_below hholds hlow]
    · rw [Clock.rampStage_above hholds hhigh]

end Sys2Proof.Machine
end

section
/-! PROOFS. Beat crossings (R8, R10, R11), and the times at which BEATOUT, the BEAT window, a strike member and the
monitor window end (R11, R115, R165, R178). -/

namespace Sys2Proof.Machine

/-! ### Counting a beat (R8, R9) -/

theorem Clock.countBeat_within {c : Clock} (h : c.beat + 1 ≠ c.meter) : c.countBeat = { c with beat := c.beat + 1 } :=
  if_neg (by simpa [Clock.atBarLine] using h)

theorem Clock.countBeat_barLine {c : Clock} (h : c.beat + 1 = c.meter) :
    c.countBeat = { c with beat := 0, bar := c.bar + 1, meter := c.pendingMeter.getD c.meter, pendingMeter := none } :=
  if_pos (by simpa [Clock.atBarLine] using h)

theorem Clock.countBeat_pos (c : Clock) : c.countBeat.pos = c.pos := by
  unfold Clock.countBeat
  split <;> rfl

theorem Clock.countBeat_cues (c : Clock) : c.countBeat.cues = c.cues := by
  unfold Clock.countBeat
  split <;> rfl

/-! ### What a port is told (R10) -/

section

variable {now : StageTime} {bar : BitVec 16} {beat : Nat} {barLine : Bool} {r : PortRec}

/-- The notice of a fitting cue match, told first. -/
def PortRec.tellCue (now : StageTime) (bar : BitVec 16) (beat : Nat) (r : PortRec) : PortRec :=
  if r.cue.fits bar beat then r.modUnit (NoticeUnit.raise now .cue) else r

theorem PortRec.tellCue_worked (now : StageTime) (bar : BitVec 16) (beat : Nat) (r : PortRec) :
    r.Worked (r.tellCue now bar beat) := by
  unfold PortRec.tellCue
  split
  · exact PortRec.raise_worked ..
  · exact .refl r

/-- The beat notice, told by the mode. -/
theorem PortRec.tellBeat_eq (now : StageTime) (bar : BitVec 16) (beat : Nat) (barLine : Bool) (r : PortRec) :
    r.tellBeat now bar beat barLine =
      if (r.tellCue now bar beat).beatMode = .beat || ((r.tellCue now bar beat).beatMode = .bar && barLine) then
        (r.tellCue now bar beat).modUnit (NoticeUnit.raise now .beat) else r.tellCue now bar beat := rfl

theorem PortRec.tellBeat_cue (hon : r.unit.enabled .cue = true) (hfits : r.cue.fits bar beat = true) :
    (r.tellBeat now bar beat barLine).unit.latched .cue = true := by
  have hcue : r.tellCue now bar beat = r.modUnit (NoticeUnit.raise now .cue) := if_pos hfits
  have hlatched : (r.tellCue now bar beat).unit.latched .cue = true := by
    rw [hcue]
    exact NoticeUnit.raise_latched now .cue r.unit hon
  rw [PortRec.tellBeat_eq]
  split
  · exact (PortRec.raise_worked now .beat _).unit.kept _ hlatched
  · exact hlatched

theorem PortRec.tellBeat_beat (hon : r.unit.enabled .beat = true)
    (hmode : r.beatMode = .beat ∨ (r.beatMode = .bar ∧ barLine = true)) :
    (r.tellBeat now bar beat barLine).unit.latched .beat = true ∧
      (r.tellBeat now bar beat barLine).unit.beatWindow = some (now + 5000) := by
  have hcue := r.tellCue_worked now bar beat
  have hon' : (r.tellCue now bar beat).unit.enabled .beat = true := by
    rw [NoticeUnit.enabled, hcue.unit.enables]
    exact hon
  have htold : (r.tellBeat now bar beat barLine) = (r.tellCue now bar beat).modUnit (NoticeUnit.raise now .beat) := by
    rw [PortRec.tellBeat_eq, hcue.beatMode]
    exact if_pos (by simpa using hmode)
  rw [htold]
  refine ⟨NoticeUnit.raise_latched now .beat _ hon', ?_⟩
  rw [PortRec.modUnit, NoticeUnit.raise_of_enabled hon']
  rfl

end

/-! ### A crossing (R8) -/

/-- A crossing counts the beat, starts the pulse and tells the ports. -/
theorem State.crossBeat_eq (s : State) : s.crossBeat =
    { s with clock := { s.clock.countBeat with
               beatout := some (plus s.now (if s.clock.atBarLine then 10000 else 2000)) },
             ports := s.ports.map
               (PortRec.tellBeat s.now s.clock.countBeat.bar s.clock.countBeat.beat s.clock.atBarLine) } := rfl

/-- A running step on which the tick moves to a multiple of 384 is its ramp stage and a crossing, where no cue waits. -/
theorem exec_beatStep_crossing {s : State} (hr : s.resetLow = false) (hrun : s.clock.running = true)
    (hcues : s.clock.cues = [])
    (hmoves : s.clock.pos.extractLsb' 32 32 ≠ (s.clock.pos + s.clock.rate.setWidth 64).extractLsb' 32 32)
    (hbeat : ((s.clock.pos + s.clock.rate.setWidth 64).extractLsb' 32 32).toNat % 384 = 0) :
    exec .beatStep s = .next (s.modClock fun c => (c.rearm s.now).advance.rampStage).crossBeat := by
  have hcross : crosses (s.clock.rearm s.now).tick (s.clock.rearm s.now).advance.rampStage.tick = true := by
    rw [Clock.rampStage_tick]
    have hne : (s.clock.rearm s.now).advance.tick ≠ (s.clock.rearm s.now).tick := hmoves.symm
    have hmod : (s.clock.rearm s.now).advance.tick.toNat % 384 = 0 := hbeat
    simp [crosses, hne, hmod]
  have hnone : ((s.modClock fun c => (c.rearm s.now).advance.rampStage).crossBeat).clock.cues = [] := by
    have hramp : (s.clock.rearm s.now).advance.rampStage.cues = [] := by
      rw [Clock.rampStage_rest]
      exact hcues
    rw [State.crossBeat_eq]
    exact (Clock.countBeat_cues _).trans hramp
  rw [exec_beatStep hr, beatStepEvent_running hrun, State.runningStep]
  exact congrArg _ ((congrArg State.applyDueCues (if_pos hcross)).trans (State.applyDueCues_of_none hnone))

/-- Settles O19: the counters by whether the beat ends its bar, and the ports as they are told. -/
theorem beatCrossingsCountBeatsAndBars : Obligations.BeatCrossingsCountBeatsAndBars := by
  intro s hr hrun hcues hmoves hbeat
  refine ⟨_, exec_beatStep_crossing hr hrun hcues hmoves hbeat, ?_⟩
  generalize hc : (s.clock.rearm s.now).advance.rampStage = c
  have hrest : c.pos = s.clock.pos + s.clock.rate.setWidth 64 ∧ c.beat = s.clock.beat ∧ c.bar = s.clock.bar ∧
      c.meter = s.clock.meter ∧ c.pendingMeter = s.clock.pendingMeter := by
    rw [← hc, Clock.rampStage_rest]
    exact ⟨rfl, rfl, rfl, rfl, rfl⟩
  obtain ⟨hpos, hcbeat, hbar, hmeter, hpending⟩ := hrest
  have hline : c.atBarLine = true ↔ s.clock.beat + 1 = s.clock.meter := by
    rw [Clock.atBarLine, beq_iff_eq, hcbeat, hmeter]
  have hstate : (s.modClock fun c => (c.rearm s.now).advance.rampStage) = { s with clock := c } := by
    rw [← hc]
    rfl
  rw [hstate, State.crossBeat_eq]
  refine ⟨?_, fun hwithin => ?_, fun hend => ?_, fun p hon hfits => ?_, fun p hon hmode => ?_, rfl⟩
  · exact c.countBeat_pos.trans hpos
  · have hnot : ¬ c.atBarLine = true := fun h => hwithin (hline.mp h)
    simp only [Clock.countBeat_within (c := c) (by rw [hcbeat, hmeter]; exact hwithin), if_neg hnot]
    exact ⟨congrArg (· + 1) hcbeat, hbar, hmeter, hpending, rfl⟩
  · rw [Clock.countBeat_barLine (c := c) (by rw [hcbeat, hmeter]; exact hend), if_pos (hline.mpr hend)]
    exact ⟨rfl, congrArg (· + 1) hbar, by rw [hpending, hmeter], rfl, rfl⟩
  · simp only [State.port, Fin.getElem_fin, Vector.getElem_map]
    exact PortRec.tellBeat_cue hon hfits
  · simp only [State.port, Fin.getElem_fin, Vector.getElem_map]
    exact PortRec.tellBeat_beat hon (hmode.imp id fun h => ⟨h.1, hline.mpr h.2⟩)

/-! ### Reached end times -/

@[simp] theorem endReached_self (t : StageTime) : endReached t (some t) = true := atOrBefore_self t

/-- An event that acts when its condition holds, at a part out of reset. -/
theorem unlessReset_when {b : State → Prop} [DecidablePred b] {f : State → State} {s : State} (hr : s.resetLow = false)
    (hb : b s) : unlessReset (fun s => if b s then f s else s) s = f s := by
  rw [unlessReset_running hr, if_pos hb]

/-- Settles O21: each event acts when its end time is reached, as it is now. -/
theorem reachedEndTimesAct : Obligations.ReachedEndTimesAct := by
  intro s hr
  refine ⟨fun h => ?_, fun p h => ?_, fun c h => ?_, fun h => ?_⟩
  · exact congrArg Host.Outcome.next (unlessReset_when hr (by rw [h]; exact endReached_self _))
  · exact congrArg Host.Outcome.next (unlessReset_when hr (by rw [h]; exact endReached_self _))
  · exact congrArg Host.Outcome.next (unlessReset_when hr (by rw [h]; exact endReached_self _))
  · have hpub := unlessReset_when (b := fun s => atOrBefore s.monitor.nextExpiry s.now = true)
      (f := fun s => { s with monitor := s.monitor.publish s.settings.monitorWindow }) hr (by rw [h]; exact atOrBefore_self _)
    refine (congrArg Host.Outcome.next hpub).trans ?_
    simp only [Monitor.publish, h]

end Sys2Proof.Machine
end

section
/-! PROOFS. The refusals of requests, and the set-up of a channel (R15, R20, R28, R58, R77, R174, R188, R190). -/

namespace Sys2Proof.Machine

/-! ### CHAN_SETUP (R28) -/

/-- The checks of a CHAN_SETUP's scalars (R28 check 1). -/
theorem setupInRanges_iff (f : SetupFields) : setupInRanges f = true ↔
    5 ≤ f.pulseMin.toNat ∧ f.pulseMin.toNat ≤ f.pulseMax.toNat ∧ f.pulseMax.toNat ≤ 2000 ∧ 5 ≤ f.recovery.toNat ∧
      f.recovery.toNat ≤ 500 ∧ 100 ≤ f.heatLimit.toNat ∧ 1 ≤ f.coolingRate.toNat ∧ f.adaptShift.toNat ≤ 4 ∧
      1 ≤ f.missLimit.toNat ∧ f.missLimit.toNat ≤ 15 := by
  simp only [setupInRanges, Bool.and_eq_true, inRange_iff, decide_eq_true_eq]
  omega

theorem kindOfCode_eq_none {b : Byte} (h1 : b ≠ 1) (h2 : b ≠ 2) : kindOfCode b = none := by
  rw [kindOfCode, if_neg h1, if_neg h2]

theorem kindOfCode_byte (k : Kind) : kindOfCode k.byte = some k := by cases k <;> rfl

theorem State.channelBusy_iff {s : State} {c : ChanId} : s.channelBusy c = true ↔
    (∃ e ∈ s.timeline, e.action.chan = some c) ∨ (s.chan c).slot ≠ none ∨ (s.chan c).hold ≠ none := by
  simp [State.channelBusy, State.channelArmed, or_assoc, Option.isSome_iff_ne_none]

/-- CHAN_SETUP of a channel of the part, by its checks in order. -/
theorem exec_chanSetup (p : Port) (c : ChanId) {f : SetupFields} {k : Kind} (hk : kindOfCode f.kind = some k) {s : State}
    (h : s.Taking) : exec (.chanSetup p (BitVec.ofNat 8 c.val) f) s =
      if !setupInRanges f then .next (s.reply p (Reply.bare .range))
      else if s.channelBusy c then .next (s.reply p (Reply.bare .busy))
      else if !s.canCarry c k then .next (s.reply p (Reply.bare .range))
      else .next (((s.modChan c (Channel.configured k (setupScalars f))).settleUnlessFaulted c).reply p
        (Reply.bare .ok)) := by
  rw [exec_of_taking (body := chanSetupBody _ f) rfl h, chanSetupBody]
  simp only [hk, chanByte_toNat, dif_pos c.isLt, Fin.eta]
  split
  · rfl
  · split
    · rfl
    · split <;> rfl

theorem exec_chanSetup_outOfRange (p : Port) (n : Byte) {f : SetupFields} {s : State} (h : s.Taking)
    (hn : 127 < n.toNat ∨ kindOfCode f.kind = none) :
    exec (.chanSetup p n f) s = .next (s.reply p (Reply.bare .range)) := by
  refine exec_of_refused (body := chanSetupBody n f) rfl h ?_
  unfold chanSetupBody
  split
  · rfl
  · rename_i hk
    rw [dif_neg]
    rcases hn with hn | hn
    · omega
    · rw [hn] at hk
      cases hk

/-- A HOLD on a board that cannot hold that output (R28 check 3). -/
theorem State.canCarry_hold {s : State} {c : ChanId} {mask : Byte} (h : s.boardEntry c = some mask) :
    s.canCarry c .hold = mask.getLsbD (c.val % 8) := by
  simp [State.canCarry, h, outputOf]

theorem State.canCarry_of {s : State} {c : ChanId} {k : Kind}
    (h : k = .hold → ∀ mask, s.boardEntry c = some mask → mask.getLsbD (c.val % 8) = true) : s.canCarry c k = true := by
  cases k with
  | strike => rfl
  | hold =>
    cases hb : s.boardEntry c with
    | none => simp [State.canCarry, hb]
    | some mask => rw [State.canCarry_hold hb, h rfl mask hb]

/-- Settling a channel that is not FAULTED, as a change of that channel (R24). -/
theorem State.settleUnlessFaulted_chan (s : State) (c : ChanId) : (s.settleUnlessFaulted c).chan c =
    if (s.chan c).presence = .faulted then s.chan c else (s.chan c).settle (s.boardEntry c) (outputOf c) := by
  rw [State.settleUnlessFaulted, State.modChan_chan, if_pos rfl]

theorem State.modChan_modChan (s : State) (c : ChanId) (f g : Channel → Channel) :
    (s.modChan c f).modChan c g = s.modChan c fun ch => g (f ch) := by
  simp [State.modChan]

/-- A change of a channel is known by what it makes of the channel's record. -/
theorem State.modChan_eq_const (s : State) (c : ChanId) (f : Channel → Channel) :
    s.modChan c f = s.modChan c fun _ => (s.modChan c f).chan c := by
  have hchan : (s.modChan c f).chan c = f (s.chan c) := by rw [State.modChan_chan, if_pos rfl]
  rw [hchan]
  rfl

/-- A channel whose board can carry its kind settles READY where the board is present and ABSENT where not (R24). -/
theorem Channel.settle_carried {ch : Channel} {k : Kind} {board : Option Byte} {o : Fin 8} (hk : ch.kind = some k)
    (hc : k = .hold → ∀ mask, board = some mask → mask.getLsbD o.val = true) :
    ch.settle board o = { ch with presence := if board.isSome then .ready else .absent, cause := none } := by
  cases board with
  | none => exact Channel.settle_noBoard o ch
  | some mask =>
    cases k with
    | strike => exact Channel.settle_strike hk mask o
    | hold =>
      rw [Channel.settle_hold hk, if_pos (hc rfl mask rfl)]
      rfl

/-- Settles O22: the checks all pass, and the channel is set up and then settled, unless it is FAULTED. -/
theorem chanSetupConfiguresAndSettles : Obligations.ChanSetupConfiguresAndSettles := by
  intro p c f k s h hkind hmin hminmax hmax hrec hrec' hheat hcool hadapt hmiss hmiss' harmed hslot hhold hcarry
  have hk : kindOfCode f.kind = some k := hkind ▸ kindOfCode_byte k
  have hranges : setupInRanges f = true :=
    (setupInRanges_iff f).mpr ⟨hmin, hminmax, hmax, hrec, hrec', hheat, hcool, hadapt, hmiss, hmiss'⟩
  have hfree : ¬ s.channelBusy c = true := by
    rw [State.channelBusy_iff]
    rintro (⟨e, he, hc⟩ | hs | hh)
    · exact harmed e he hc
    · exact hs hslot
    · exact hh hhold
  have hcan : s.canCarry c k = true := State.canCarry_of hcarry
  refine ⟨(s.modChan c (Channel.configured k (setupScalars f))).settleUnlessFaulted c, ?_, ?_, ?_⟩
  · rw [exec_chanSetup p c hk h, hranges, if_neg (by decide), if_neg hfree, hcan, if_neg (by decide)]
  · rw [State.settleUnlessFaulted, State.modChan_modChan]
    exact State.modChan_eq_const ..
  · have hchan : (s.modChan c (Channel.configured k (setupScalars f))).chan c =
        (s.chan c).configured k (setupScalars f) := by rw [State.modChan_chan, if_pos rfl]
    have hboard : (s.modChan c (Channel.configured k (setupScalars f))).boardEntry c = s.boardEntry c := rfl
    rw [State.settleUnlessFaulted_chan, hchan, hboard]
    by_cases hf : (s.chan c).presence = .faulted
    · rw [if_pos (show ((s.chan c).configured k (setupScalars f)).presence = .faulted from hf)]
      exact ⟨rfl, fun _ => ⟨hf, rfl⟩, fun hn => absurd hf hn⟩
    · rw [if_neg (show ¬ ((s.chan c).configured k (setupScalars f)).presence = .faulted from hf),
        Channel.settle_carried (k := k) rfl hcarry]
      exact ⟨rfl, fun hn => absurd hn hf, fun _ => ⟨rfl, rfl⟩⟩

/-! ### What the checks of a request refuse -/

/-- A port that holds a current or queued beat phrase (R20, R57). -/
theorem State.clockShared_of {s : State} {q : Port} (h : (∃ o, (s.port q).reader.current = some o ∧ o.clock = .beat) ∨
    ∃ x ∈ (s.port q).reader.queue, x.head.clock = .beat) : s.clockShared = true := by
  refine Vector.any_eq_true.mpr ⟨q.val, q.isLt, ?_⟩
  rw [Reader.holdsBeatPhrase, Bool.or_eq_true, List.any_eq_true]
  rcases h with ⟨o, ho, hc⟩ | ⟨x, hx, hc⟩
  · left
    rw [show s.ports[q.val].reader.current = some o from ho]
    simp [hc]
  · exact .inr ⟨x, hx, by simp [hc]⟩

theorem beatModeOfCode_eq_none {b : Byte} (h : 2 < b.toNat) : beatModeOfCode b = none := by
  have h0 : b ≠ 0 := byte_ne_of_lt (by simp; omega)
  have h1 : b ≠ 1 := byte_ne_of_lt (by simp; omega)
  have h2 : b ≠ 2 := byte_ne_of_lt (by simp; omega)
  rw [beatModeOfCode, if_neg h0, if_neg h1, if_neg h2]

theorem filterOfCode_eq_none {b : Byte} (h : 1 < b.toNat) : filterOfCode b = none := by
  have h0 : b ≠ 0 := byte_ne_of_lt (by simp; omega)
  have h1 : b ≠ 1 := byte_ne_of_lt (by simp; omega)
  rw [filterOfCode, if_neg h0, if_neg h1]

theorem portStopBody_outOfRange (p : Port) {mode : Byte} (h : 2 < mode.toNat) : portStopBody p mode = refuse .range := by
  funext s
  unfold portStopBody
  split
  · omega
  · omega
  · omega
  · rfl

theorem holdSetBody_outOfRange (p : Port) {c a l : Byte} (h : 127 < c.toNat ∨ 1 < a.toNat ∨ (a = 0 ∧ l = 0)) :
    holdSetBody p c a l = refuse .range := by
  funext s
  unfold holdSetBody
  split
  · rw [if_pos]
    rcases h with h | h | h
    · omega
    · simp [h]
    · simp [h]
  · rfl

theorem strikeBody_outOfRange (p : Port) {c v f : Byte} (h : 127 < c.toNat ∨ v = 0 ∨ 127 < v.toNat ∨ 1 < f.toNat) :
    strikeBody p c v f = refuse .range := by
  funext s
  unfold strikeBody
  split
  · rw [if_pos]
    simp only [Bool.or_eq_true, Bool.not_eq_true', inRange, decide_eq_true_eq, Bool.and_eq_false_iff,
      decide_eq_false_iff_not]
    rcases h with h | h | h | h
    · omega
    · left; left
      rw [h]
      decide
    · left; right
      omega
    · exact .inr h
  · rfl

/-- The checks of an immediate stroke that come before SAFE, all passed (R77). -/
theorem strike_inRange {v f : Byte} (hv : 1 ≤ v.toNat) (hv' : v.toNat ≤ 127) (hf : f.toNat ≤ 1) :
    ¬ (!inRange 1 127 v.toNat || decide (1 < f.toNat)) = true := by
  simp only [Bool.or_eq_true, Bool.not_eq_true', inRange, decide_eq_true_eq, Bool.and_eq_false_iff,
    decide_eq_false_iff_not]
  omega

theorem strikeBody_inRange (p : Port) {c v f : Byte} {s : State} (hc : c.toNat < 128) (hv : 1 ≤ v.toNat)
    (hv' : v.toNat ≤ 127) (hf : f.toNat ≤ 1) : strikeBody p c v f s =
      if s.safeLow then refuse .safe s
      else
        let r := s.arm (OwnerRef.bare p)
          (s.armStrike (OwnerRef.bare p) (s.port p).reader.level v.toNat (f.getLsbD 0) ⟨c.toNat, hc⟩
            fun fig => plus s.now (s.settings.frameTime + fig.flight * 10))
        (r.2, armedReply r.1) := by
  rw [strikeBody, dif_pos hc, if_neg (strike_inRange hv hv' hf)]

theorem holdSetBody_inRange (p : Port) {c a l : Byte} {s : State} (hc : c.toNat < 128) (ha : a.toNat ≤ 1)
    (hl : ¬ (a = 0 ∧ l = 0)) : holdSetBody p c a l s =
      if s.safeLow then refuse .safe s
      else
        let r := s.arm (OwnerRef.bare p) (s.armHold (OwnerRef.bare p) ⟨c.toNat, hc⟩
          (holdAction ⟨c.toNat, hc⟩ (a = 1) l.toNat) (plus s.now s.settings.frameTime))
        (r.2, armedReply r.1) := by
  have hrange : ¬ (decide (1 < a.toNat) || (decide (a = 0) && decide (l = 0))) = true := by
    simp only [Bool.or_eq_true, Bool.and_eq_true, decide_eq_true_eq, not_or]
    exact ⟨by omega, hl⟩
  rw [holdSetBody, dif_pos hc]
  simp only [if_neg hrange]

/-- A post whose origin mode is none of the five, or whose origin lies too far off (R58 check 1, R59). -/
theorem originOf_eq_none {now : StageTime} {mode : Byte} {value : BitVec 32} (h : 4 < mode.toNat ∨
    (mode = 2 ∧ 600000000 < (value - now).toNat) ∨ (mode = 3 ∧ 600000 < value.toNat)) :
    originOf now mode value = none := by
  rcases h with h | ⟨rfl, h⟩ | ⟨rfl, h⟩
  · unfold originOf
    split
    · omega
    · omega
    · omega
    · omega
    · omega
    · rfl
  · exact if_neg (not_le.mpr h)
  · exact if_neg (not_le.mpr h)

theorem originOf_isSome {now : StageTime} {mode : Byte} {value : BitVec 32} (h : mode.toNat ≤ 4)
    (h2 : mode = 2 → (value - now).toNat ≤ 600000000) (h3 : mode = 3 → value.toNat ≤ 600000) :
    ∃ o, originOf now mode value = some o := by
  unfold originOf
  split
  · exact ⟨_, rfl⟩
  · exact ⟨_, rfl⟩
  · rename_i hm
    exact ⟨_, if_pos (h2 (BitVec.eq_of_toNat_eq hm))⟩
  · rename_i hm
    exact ⟨_, if_pos (h3 (BitVec.eq_of_toNat_eq hm))⟩
  · exact ⟨_, rfl⟩
  · rename_i n0 n1 n2 n3 n4
    simp only [imp_false] at n0 n1 n2 n3 n4
    omega

theorem phrasePostBody_outOfRange (p : Port) {start : BitVec 16} {mode : Byte} {value : BitVec 32} {s : State}
    (h : 2047 < start.toNat ∨ originOf s.now mode value = none) : phrasePostBody p start mode value s = refuse .range s := by
  unfold phrasePostBody
  split
  · rfl
  · rename_i ho
    rw [if_pos]
    exact h.resolve_right (by simp [ho])

theorem phrasePostBody_safe (p : Port) {start : BitVec 16} {mode : Byte} {value : BitVec 32} {s : State} {o : Origin}
    (ho : originOf s.now mode value = some o) (hstart : start.toNat ≤ 2047) (hs : s.safeLow = true) :
    phrasePostBody p start mode value s = refuse .safe s := by
  simp only [phrasePostBody, ho]
  rw [if_neg (by omega), if_pos hs]

/-- A CHAN_SETUP with a scalar out of its range, or of no kind (R28 check 1). -/
theorem setup_refused {f : SetupFields} (h : f.kind ≠ 1 ∧ f.kind ≠ 2 ∨ f.pulseMin.toNat < 5 ∨
    f.pulseMax.toNat < f.pulseMin.toNat ∨ 2000 < f.pulseMax.toNat ∨ f.recovery.toNat < 5 ∨ 500 < f.recovery.toNat ∨
    f.heatLimit.toNat < 100 ∨ f.coolingRate = 0 ∨ 4 < f.adaptShift.toNat ∨ f.missLimit = 0 ∨ 15 < f.missLimit.toNat) :
    kindOfCode f.kind = none ∨ setupInRanges f = false := by
  rcases h with ⟨h1, h2⟩ | h
  · exact .inl (kindOfCode_eq_none h1 h2)
  · right
    rw [← Bool.not_eq_true, setupInRanges_iff]
    have hzero : ∀ x : Byte, x = 0 ↔ x.toNat = 0 := fun x => (BitVec.toNat_inj (y := 0)).symm
    rw [hzero, hzero] at h
    omega

theorem exec_chanSetup_refused (p : Port) (c : ChanId) {f : SetupFields} {s : State} (h : s.Taking)
    (hf : kindOfCode f.kind = none ∨ setupInRanges f = false) :
    exec (.chanSetup p (BitVec.ofNat 8 c.val) f) s = .next (s.reply p (Reply.bare .range)) := by
  cases hk : kindOfCode f.kind with
  | none => exact exec_chanSetup_outOfRange p _ h (.inr hk)
  | some k =>
    have hr : setupInRanges f = false := hf.resolve_left (by simp [hk])
    rw [exec_chanSetup p c hk h, hr, if_pos (by decide)]

/-- CHAN_SETUP with its scalars in range: a busy channel and a HOLD that its board cannot carry (R28 checks 2, 3). -/
theorem exec_chanSetup_busy (p : Port) (c : ChanId) {f : SetupFields} {k : Kind} (hk : kindOfCode f.kind = some k)
    {s : State} (h : s.Taking) (hr : setupInRanges f = true) (hb : s.channelBusy c = true) :
    exec (.chanSetup p (BitVec.ofNat 8 c.val) f) s = .next (s.reply p (Reply.bare .busy)) := by
  rw [exec_chanSetup p c hk h, hr, if_neg (by decide), if_pos hb]

theorem exec_chanSetup_cannotCarry (p : Port) (c : ChanId) {f : SetupFields} (hk : f.kind = 2) {s : State} (h : s.Taking)
    (hr : setupInRanges f = true) (hb : ¬ s.channelBusy c = true) {mask : Byte} (hboard : s.boardEntry c = some mask)
    (hmask : mask.getLsbD (c.val % 8) = false) :
    exec (.chanSetup p (BitVec.ofNat 8 c.val) f) s = .next (s.reply p (Reply.bare .range)) := by
  have hkind : kindOfCode f.kind = some .hold := by rw [hk]; rfl
  rw [exec_chanSetup p c hkind h, hr, if_neg (by decide), if_neg hb, State.canCarry_hold hboard, hmask,
    if_pos (by decide)]

theorem chanReadBody_outOfRange {c : Byte} (h : 127 < c.toNat) : chanReadBody c = refuse .range := by
  funext s
  rw [chanReadBody, dif_neg (by omega)]

theorem chainReadBody_outOfRange {d : Byte} (h : 3 < d.toNat) : chainReadBody d = refuse .range := by
  funext s
  rw [chainReadBody, dif_neg (by omega)]

theorem filterSetBody_outOfRange (p : Port) {f m : Byte} (h : 1 < f.toNat ∨ m = 0 ∨ 64 < m.toNat) :
    filterSetBody p f m = refuse .range := by
  funext s
  unfold filterSetBody
  split
  · rename_i hf
    rw [if_neg]
    rw [inRange_iff]
    rcases h with h | rfl | h
    · rw [filterOfCode_eq_none h] at hf
      cases hf
    · simp
    · omega
  · rfl

/-- Settles O10: each request by the first of its checks that fails. -/
theorem requestsAreRefused : Obligations.RequestsAreRefused := by
  intro p s h
  refine ⟨fun mode tick bar beat => ⟨fun hrange => ?_, fun hm hbeat hshared => ?_⟩, fun mode hm => ⟨?_, ?_⟩,
    fun c hc f => ⟨?_, ?_⟩, fun c f => ⟨fun hf => ?_, fun hkind hmin hminmax hmax hrec hrec' hheat hcool hadapt hmiss hmiss' => ?_⟩,
    fun start mode value hpost => ?_, fun c v f hs => ?_, fun c a l hs => ?_, fun d hd => ?_, fun f m hf => ?_,
    fun hsafe => ⟨?_, fun c v f hc hv hv' hf => ?_, fun c a l hc ha hl => ?_, fun start mode value hs hm h2 h3 => ?_⟩⟩
  · refine exec_of_refused (body := clkPlaceBody p mode tick bar beat) rfl h ?_
    rw [clkPlaceBody, if_pos (by simpa using hrange)]
  · refine exec_of_refused (body := clkPlaceBody p mode tick bar beat) rfl h ?_
    rw [clkPlaceBody, if_neg (by simp; omega), if_pos]
    obtain ⟨q, hq⟩ := hshared
    exact State.clockShared_of hq
  · refine exec_of_refused (body := beatModeBody p mode) rfl h ?_
    rw [beatModeBody, beatModeOfCode_eq_none hm]
  · exact exec_of_refused rfl h (congrFun (portStopBody_outOfRange p hm) s)
  · exact exec_chanSetup_outOfRange p c h (.inl hc)
  · exact exec_of_refused rfl h (congrFun (chanReadBody_outOfRange hc) s)
  · exact exec_chanSetup_refused p c h (setup_refused hf)
  · have hr : setupInRanges f = true :=
      (setupInRanges_iff f).mpr ⟨hmin, hminmax, hmax, hrec, hrec', hheat, hcool, hadapt, hmiss, hmiss'⟩
    refine ⟨fun hbusy => ?_, fun mask harmed hslot hhold hk hboard hmask => ?_⟩
    · have hb := State.channelBusy_iff.mpr hbusy
      rcases hkind with hk | hk
      · exact exec_chanSetup_busy p c (k := .strike) (by rw [hk]; rfl) h hr hb
      · exact exec_chanSetup_busy p c (k := .hold) (by rw [hk]; rfl) h hr hb
    · refine exec_chanSetup_cannotCarry p c hk h hr ?_ hboard hmask
      rw [State.channelBusy_iff]
      simpa [hslot, hhold] using harmed
  · refine exec_of_refused (body := phrasePostBody p start mode value) rfl h (phrasePostBody_outOfRange p ?_)
    rcases hpost with hstart | horigin
    · exact .inl hstart
    · exact .inr (originOf_eq_none horigin)
  · exact exec_of_refused rfl h (congrFun (strikeBody_outOfRange p hs) s)
  · exact exec_of_refused rfl h (congrFun (holdSetBody_outOfRange p hs) s)
  · exact exec_of_refused rfl h (congrFun (chainReadBody_outOfRange hd) s)
  · exact exec_of_refused rfl h (congrFun (filterSetBody_outOfRange p hf) s)
  · refine exec_of_refused (body := portGoBody p) rfl h ?_
    rw [portGoBody, if_pos hsafe]
  · refine exec_of_refused (body := strikeBody p c v f) rfl h ?_
    rw [strikeBody_inRange p (by omega) hv hv' hf, if_pos hsafe]
  · refine exec_of_refused (body := holdSetBody p c a l) rfl h ?_
    rw [holdSetBody_inRange p (by omega) ha hl, if_pos hsafe]
  · obtain ⟨o, ho⟩ := originOf_isSome hm h2 h3
    exact exec_of_refused (body := phrasePostBody p start mode value) rfl h (phrasePostBody_safe p ho hs hsafe)

end Sys2Proof.Machine
end

section
/-! PROOFS. PORT_RESET, the read requests, the settings, the supply line, the transmitter, the receiver and the end of a
scan (R25, R78, R128, R134, R138, R144, R147, R193). -/

namespace Sys2Proof.Machine

/-! ### PORT_RESET (R193) -/

theorem NoticeUnit.edge_of_disabled {u : NoticeUnit} {src : Source} (h : u.enables.getLsbD src.num = false)
    (now : StageTime) (rising : Bool) : u.edge now src rising = u := by
  unfold NoticeUnit.edge
  split
  · rw [NoticeUnit.raise_of_disabled h, ite_self]
  · rfl

theorem NoticeUnit.judge_of_disabled {u : NoticeUnit} {src : Source} (h : u.enables.getLsbD src.num = false)
    (now : StageTime) (was is : Bool) : u.judge now src was is = u := by
  rw [NoticeUnit.judge, NoticeUnit.edge_of_disabled h, ite_self]

/-- A port after the timeline was replaced: TIMELINE_HIGH is judged again, and nothing else of the port changes. -/
theorem State.withTimeline_port (s : State) (l : List Entry) (q : Port) : (s.withTimeline l).port q = { s.port q with
    unit := (s.port q).unit.judge s.now .timelineHigh (decide (s.settings.highMark ≤ s.timeline.length))
      (decide (s.settings.highMark ≤ l.length)) } :=
  State.modPorts_port _ _ q

/-- The state a PORT_RESET leaves, before its reply. -/
def State.portReset (s : State) (p : Port) : State :=
  { (s.modPort p PortRec.portReset).withTimeline (withdrawFrom (fun ref => ref.port == p) s.timeline) with
    channels := s.channels.map (Channel.forgetPort p), clock := s.clock.forgetPort p }

theorem exec_portReset (p : Port) {s : State} (h : s.Taking) :
    exec (.portReset p) s = .next ((s.portReset p).reply p (Reply.bare .ok)) :=
  exec_of_taking (body := portResetBody p) rfl h

theorem State.portReset_port_self (s : State) (p : Port) : (s.portReset p).port p = (s.port p).portReset := by
  refine (State.withTimeline_port _ _ p).trans ?_
  rw [State.modPort_port_same]
  exact congrArg (fun u => { (s.port p).portReset with unit := u }) (NoticeUnit.judge_of_disabled (u := NoticeUnit.reset) (src := .timelineHigh) (by decide) ..)

theorem State.portReset_port_other (s : State) {p q : Port} (h : q ≠ p) : (s.portReset p).port q = { s.port q with
    unit := (s.port q).unit.judge s.now .timelineHigh (decide (s.settings.highMark ≤ s.timeline.length))
      (decide (s.settings.highMark ≤ (s.portReset p).timeline.length)) } := by
  refine (State.withTimeline_port _ _ q).trans ?_
  rw [State.modPort_port_other _ _ _ _ h]
  rfl

theorem State.portReset_chan (s : State) (p : Port) (c : ChanId) :
    (s.portReset p).chan c = (s.chan c).forgetPort p := by
  simp [State.portReset, State.chan]

/-- The entries that a port's references leave, with the references that are left. -/
theorem withdrawFrom_port (p : Port) (l : List Entry) : withdrawFrom (fun ref => ref.port == p) l =
    l.filterMap fun e => if (e.owners.filter fun o => o.port != p) = [] then none
      else some { e with owners := e.owners.filter fun o => o.port != p } := by
  refine congrArg (fun f => List.filterMap f l) (funext fun e => ?_)
  change (match e.owners.filter fun o => o.port != p with
    | [] => none
    | r :: rs => some { e with owners := r :: rs }) = _
  split
  · rename_i hnil
    rw [if_pos hnil]
  · rename_i r rs hcons
    rw [hcons, if_neg (List.cons_ne_nil r rs)]

theorem mem_withdrawFrom_port {p : Port} {l : List Entry} {e : Entry} (h : e ∈ withdrawFrom (fun ref => ref.port == p) l) :
    e.owners ≠ [] ∧ ∀ o ∈ e.owners, o.port ≠ p := by
  obtain ⟨x, -, hx, hne⟩ := mem_withdrawFrom h
  refine ⟨hne, fun o ho => ?_⟩
  rw [hx] at ho
  simpa using (List.mem_filter.mp ho).2

/-- Settles O11: each block of the state the request leaves, by itself. -/
theorem portResetForgetsOnePort : Obligations.PortResetForgetsOnePort := by
  intro p s h
  have hself : ((s.portReset p).reply p (Reply.bare .ok)).port p =
      { (s.port p).portReset with link := { (s.port p).link with reply := some (Reply.bare .ok) } } := by
    rw [State.reply_port, State.reply_link, State.portReset_port_self]
    rfl
  refine ⟨_, exec_portReset p h, ?_, ?_, ?_, ?_, ?_, ?_, ?_, fun q hq => ?_, fun e he => mem_withdrawFrom_port he,
    withdrawFrom_port p s.timeline, fun c => ?_, rfl, rfl⟩
  · rw [hself]; rfl
  · rw [hself]; rfl
  · rw [hself]; rfl
  · rw [hself]; rfl
  · rw [hself]; rfl
  · rw [hself]; rfl
  · rw [hself]
  · rw [State.reply, State.modPort_port_other _ _ _ _ hq]
    exact s.portReset_port_other hq
  · rw [State.reply_chan, State.portReset_chan]
    exact ⟨rfl, rfl, rfl⟩

/-! ### The read requests (R22, R39, R78, R135, R152, R167, R181) -/

theorem length_flatMap_const {α : Type} {f : α → List Byte} {k : Nat} (h : ∀ x, (f x).length = k) (l : List α) :
    (l.flatMap f).length = k * l.length := by
  simp [List.length_flatMap, h, Nat.mul_comm]

theorem bytesOf_length (k n : Nat) : (bytesOf k n).length = k := by
  induction k with
  | zero => rfl
  | succ k ih => rw [bytesOf, List.length_cons, ih]

theorem PortState.bytes_length (x : PortState) : x.bytes.length = 3 := by
  unfold PortState.bytes
  split <;> rfl

theorem chainEndBytes_length (e : Option ChainEnd) : (chainEndBytes e).length = 5 := by
  cases e with
  | none => rfl
  | some e => rw [chainEndBytes, List.length_cons, bytes32, bytesOf_length]

theorem Origin.bytes_length (o : Origin) : o.bytes.length = 5 := by
  cases o <;> simp [Origin.bytes, bytes32, bytesOf_length]

theorem QueueSlot.bytes_length (q : QueueSlot) : q.bytes.length = 14 := by
  simp [QueueSlot.bytes, bytesOf_length, Origin.bytes_length, byte1]

theorem OpenRec.bytes_length (o : OpenRec) : o.bytes.length = 19 := by
  simp [OpenRec.bytes, bytes32, bytesOf_length, byte1]

theorem Reader.bytes_length (rd : Reader) :
    rd.bytes.length = 14 + 14 * rd.queue.length + 19 * rd.opened.length := by
  simp only [Reader.bytes, List.length_append, PortState.bytes_length, chainEndBytes_length, bytesOf_length, byte1,
    List.length_singleton, length_flatMap_const QueueSlot.bytes_length, length_flatMap_const OpenRec.bytes_length]

/-- Settles O24: each read answers with its encoder; the length of PORT_READ is that of its parts. -/
theorem readsReplyWithTheState : Obligations.ReadsReplyWithTheState := by
  intro p s h
  refine ⟨fun c => ?_, exec_of_taking (body := portReadBody p) rfl h, exec_of_taking (body := sysReadBody) rfl h,
    exec_of_taking (body := timingReadBody) rfl h, exec_of_taking (body := noteReadBody p) rfl h,
    Reader.bytes_length _, exec_of_taking (body := clkReadBody) rfl h, fun d => ?_⟩
  · rw [exec_of_taking (body := chanReadBody _) rfl h]
    simp only [chanReadBody, chanByte_toNat, dif_pos c.isLt, Fin.eta, answer]
  · rw [exec_of_taking (body := chainReadBody _) rfl h]
    simp only [chainReadBody, chainByte_toNat, dif_pos d.isLt, Fin.eta, answer]

/-! ### The settings and the supply line (R128, R134) -/

theorem settingsInRanges_iff (f : SettingsFields) : settingsInRanges f = true ↔
    (20 ≤ f.horizon.toNat ∧ f.horizon.toNat ≤ 250) ∧ f.tolerance.toNat ≤ 20000 ∧ f.mergeWindow.toNat ≤ 20000 ∧
      (20 ≤ f.reportWindow.toNat ∧ f.reportWindow.toNat ≤ 200) ∧
      (1 ≤ f.supplyLimit.toNat ∧ f.supplyLimit.toNat ≤ 16) ∧ f.accentBoost.toNat ≤ 32 ∧
      f.outlierLimit.toNat ≤ 2000 ∧ (16 ≤ f.highMark.toNat ∧ f.highMark.toNat ≤ 256) ∧
      (f.bitRate.toNat = 1 ∨ f.bitRate.toNat = 2 ∨ f.bitRate.toNat = 4) ∧
      (2 ≤ f.gapBits.toNat ∧ f.gapBits.toNat ≤ 32) ∧ 1 ≤ f.monitorWindow.toNat := by
  simp only [settingsInRanges, Bool.and_eq_true, Bool.or_eq_true, inRange_iff, beq_iff_eq, ← BitVec.toNat_inj,
    show (1 : Byte).toNat = 1 from rfl, show (2 : Byte).toNat = 2 from rfl, show (4 : Byte).toNat = 4 from rfl]
  omega

theorem State.atRest_iff {s : State} {n : Nat} : s.atRest n = true ↔ s.timeline = [] ∧ (∀ c, (s.chan c).slot = none) ∧
    (∀ d, (s.chain d).queue = [] ∧ (s.chain d).sending = none) ∧ s.energised.length ≤ n := by
  have hslots : (s.channels.all fun ch => ch.slot.isNone) = true ↔ ∀ c, (s.chan c).slot = none := by
    rw [Vector.all_eq_true]
    exact ⟨fun h c => Option.isNone_iff_eq_none.mp (h c.val c.isLt), fun h i hi => Option.isNone_iff_eq_none.mpr (h ⟨i, hi⟩)⟩
  have hchains : s.chains.all Chain.idle = true ↔ ∀ d, (s.chain d).queue = [] ∧ (s.chain d).sending = none := by
    rw [Vector.all_eq_true]
    exact ⟨fun h d => Chain.idle_iff.mp (h d.val d.isLt), fun h i hi => Chain.idle_iff.mpr (h ⟨i, hi⟩)⟩
  simp only [State.atRest, Bool.and_eq_true, hslots, hchains, List.isEmpty_iff, decide_eq_true_eq, and_assoc]

/-- Settles O33: by the two checks of R134. -/
theorem sysSetupStoresTheSettings : Obligations.SysSetupStoresTheSettings := by
  intro p f s h
  refine ⟨settingsInRanges_iff f, fun hr => ?_, fun hr hwork => ?_, fun hr htl hslots hchains hen => ?_⟩
  · refine exec_of_refused (body := sysSetupBody f) rfl h ?_
    rw [sysSetupBody, hr, if_pos (by decide)]
  · refine exec_of_refused (body := sysSetupBody f) rfl h ?_
    have hbusy : ¬ s.atRest f.supplyLimit.toNat = true := by
      rw [State.atRest_iff]
      rintro ⟨htl, hslots, hchains, hen⟩
      rcases hwork with ht | ⟨c, hc⟩ | ⟨d, hq | hs⟩ | hlimit
      · exact ht htl
      · exact hc (hslots c)
      · exact hq (hchains d).1
      · exact hs (hchains d).2
      · omega
    rw [sysSetupBody, hr, if_neg (by decide), if_pos (by simpa using hbusy)]
  · rw [exec_of_taking (body := sysSetupBody f) rfl h, sysSetupBody, hr, if_neg (by decide),
      State.atRest_iff.mpr ⟨htl, hslots, hchains, hen⟩, if_neg (by decide)]
    rfl

/-- A SUPPLY edge in one port: it latches where the port enables SUPPLY and selects the edge. -/
theorem NoticeUnit.edge_supply (u : NoticeUnit) (now : StageTime) (rising : Bool) : u.edge now .supply rising = { u with
    latches := if u.enables.getLsbD 12 && (u.falling.getLsbD 2 == !rising) then u.latches ||| BitVec.twoPow 14 12
      else u.latches } := by
  change (if (u.falling.getLsbD 2 != rising) = true then u.raise now .supply else u) = _
  by_cases he : u.enables.getLsbD 12 = true
  · rw [NoticeUnit.raise_of_enabled he, he, Bool.true_and, show (u.falling.getLsbD 2 == !rising) =
      (u.falling.getLsbD 2 != rising) from by cases u.falling.getLsbD 2 <;> cases rising <;> rfl]
    split <;> rfl
  · rw [Bool.not_eq_true] at he
    rw [NoticeUnit.raise_of_disabled he, he, ite_self]
    rfl

/-- Settles O34: the line's edges by the line, and the notice by the port. -/
theorem sagFollowsTheLine : Obligations.SagFollowsTheLine := by
  intro s hr
  refine ⟨fun hs => ?_, fun hs => ?_, fun p hstart => exec_of_taking (body := supplyAckBody) rfl ⟨hr, hstart⟩, ?_⟩
  · rw [show exec .sagBegin s = execSagBegin s from rfl, execSagBegin, if_neg (by simp [hs]), if_neg (by simp [hr])]
  · rw [show exec .sagEnd s = execSagEnd s from rfl, execSagEnd, if_neg (by simp [hs]), if_neg (by simp [hr])]
  · rintro rising t rfl
    refine ⟨rfl, fun p => ?_⟩
    rw [State.edgeAll, State.modPorts_port, PortRec.modUnit, NoticeUnit.edge_supply]

/-! ### The transmitter and the receiver (R138, R144) -/

/-- Settles O38: the frame in transmission is done at its end, and the queue gives the next. -/
theorem framesFollowOneAnother : Obligations.FramesFollowOneAnother := by
  intro d f start s hr hsend hnow
  have hdone : (s.chain d).frameDone s.now s.settings.frameTime = true := by
    rw [Chain.frameDone, hsend, hnow]
    exact atOrBefore_self _
  have hexec : exec (.frameEnd d) s = .next (s.modChain d (Chain.endFrame s.settings.frameTime)) :=
    congrArg Host.Outcome.next (unlessReset_when (b := fun s => (s.chain d).frameDone s.now s.settings.frameTime) hr hdone)
  refine ⟨fun hq => ?_, fun g rest hq => ?_⟩
  · rw [hexec]
    exact congrArg Host.Outcome.next (State.modChain_congr (by simp only [Chain.endFrame, hsend, hq]))
  · rw [hexec]
    exact congrArg Host.Outcome.next (State.modChain_congr (by simp only [Chain.endFrame, hsend, hq, hnow]))

theorem satSucc_eq_min (n cap : Nat) : satSucc n cap = min (n + 1) (max n cap) := by
  rw [satSucc]
  split <;> omega

theorem State.modChain_eq_self {s : State} {d : ChainId} {f : Chain → Chain} (h : f (s.chain d) = s.chain d) :
    s.modChain d f = s := by
  rw [State.modChain_congr (g := id) h]
  simp [State.modChain]

theorem exec_reportReceive {d : ChainId} {word : BitVec 32} {s : State} (hr : s.resetLow = false) {f : Chain → Chain}
    (h : (s.chain d).receive s.now word = f (s.chain d)) : exec (.reportReceive d word) s = .next (s.modChain d f) := by
  rw [show exec (.reportReceive d word) s = execReportReceive d word s from rfl, execReportReceive,
    unlessReset_running hr]
  exact congrArg Host.Outcome.next (State.modChain_congr h)

theorem exec_reportReceive_unchanged {d : ChainId} {word : BitVec 32} {s : State} (hr : s.resetLow = false)
    (h : (s.chain d).receive s.now word = s.chain d) : exec (.reportReceive d word) s = .next s := by
  rw [exec_reportReceive hr (f := id) h, State.modChain_eq_self rfl]

/-- A frame whose check fails, or whose kind is no report kind, says nothing (R144 step 1). -/
theorem decodeReport_badCheck {w : BitVec 32}
    (h : crc8 [w.extractLsb' 24 8, w.extractLsb' 16 8, w.extractLsb' 8 8] ≠ w.extractLsb' 0 8) : decodeReport w = none := by
  rw [decodeReport, if_pos (by simpa using h)]

theorem decodePlainReport_unknown {w : BitVec 32} (h : w.extractLsb' 28 3 ∈ [(0 : BitVec 3), 6, 7]) :
    decodePlainReport w = none := by
  simp only [List.mem_cons, List.not_mem_nil, or_false] at h
  unfold decodePlainReport
  rcases h with h | h | h <;> rw [h] <;> rfl

theorem decodeReport_unknown {w : BitVec 32} (hm : w.msb = false) (h : w.extractLsb' 28 3 ∈ [(0 : BitVec 3), 6, 7]) :
    decodeReport w = none := by
  rw [decodeReport, hm, decodePlainReport_unknown h]
  split <;> rfl

/-- Settles O40: by what the frame says, in the order of R144. -/
theorem reportsAreReceived : Obligations.ReportsAreReceived := by
  intro d word s hr
  refine ⟨fun hbad => ?_, fun board mask hw => ⟨fun hs => ?_, fun sc hs => ⟨fun hl => ?_, fun hl => ?_⟩⟩,
    fun kind board output hw => ⟨fun hroom => ?_, fun hfull => ?_⟩⟩
  · have hnone : decodeReport word = none := by
      rcases hbad with hc | ⟨hm, hk⟩
      · exact decodeReport_badCheck hc
      · exact decodeReport_unknown hm hk
    refine exec_reportReceive hr ?_
    simp only [Chain.receive, hnone, satSucc_eq_min]
  · refine exec_reportReceive_unchanged hr ?_
    simp only [Chain.receive, hw, hs]
  · refine exec_reportReceive hr ?_
    simp only [Chain.receive, hw, hs]
    rw [if_pos hl]
    rfl
  · refine exec_reportReceive_unchanged hr ?_
    simp only [Chain.receive, hw, hs]
    rw [if_neg (by simp [hl])]
  · refine exec_reportReceive hr ?_
    simp only [Chain.receive, hw]
    rw [if_pos hroom]
  · refine exec_reportReceive hr ?_
    simp only [Chain.receive, hw, satSucc_eq_min]
    rw [if_neg (by omega)]

/-! ### The end of a scan (R25, R147) -/

/-- Settling channel after channel changes the channels alone. -/
theorem State.settleAll_eq (l : List ChanId) (s : State) :
    l.foldl State.settleUnlessFaulted s = { s with channels := (l.foldl State.settleUnlessFaulted s).channels } := by
  induction l generalizing s with
  | nil => rfl
  | cons a l ih => exact ih _

theorem State.settleUnlessFaulted_chan_other (s : State) {a c : ChanId} (h : c ≠ a) :
    (s.settleUnlessFaulted a).chan c = s.chan c := State.modChan_chan_other _ _ _ _ h

/-- Each channel of a list is settled by itself, and no other. -/
theorem State.settleAll_chan {l : List ChanId} (hl : l.Nodup) (s : State) (c : ChanId) :
    (l.foldl State.settleUnlessFaulted s).chan c = if c ∈ l then (s.settleUnlessFaulted c).chan c else s.chan c := by
  induction l generalizing s with
  | nil => rfl
  | cons a l ih =>
    obtain ⟨hal, hl⟩ := List.nodup_cons.mp hl
    rw [List.foldl_cons, ih hl]
    by_cases hca : c = a
    · subst hca
      rw [if_neg hal, if_pos List.mem_cons_self]
    · have hrest := s.settleUnlessFaulted_chan_other hca
      have hboard : (s.settleUnlessFaulted a).boardEntry c = s.boardEntry c := rfl
      rw [State.settleUnlessFaulted_chan, State.settleUnlessFaulted_chan, hrest, hboard]
      simp only [List.mem_cons, hca, false_or]

theorem chainChannels_nodup (d : ChainId) : (chainChannels d).Nodup := (List.nodup_finRange 128).filter _

/-- Settles O41: the collected boards are in place when the chain's channels are settled one by one. -/
theorem scansSettleTheirChannels : Obligations.ScansSettleTheirChannels := by
  intro d sc s hr hscan hnow
  have hdone : (s.chain d).scanDone s.now = true := by
    rw [Chain.scanDone, hscan, hnow]
    exact atOrBefore_self _
  have hexec : exec (.scanEnd d) s =
      .next ((chainChannels d).foldl State.settleUnlessFaulted (s.modChain d (Chain.endScan sc))) := by
    refine (congrArg Host.Outcome.next (unlessReset_when (b := fun s => (s.chain d).scanDone s.now) hr hdone)).trans ?_
    rw [State.endScan, hscan]
  have hchain : (s.modChain d (Chain.endScan sc)).chain d = { s.chain d with boards := sc.found, scan := none } :=
    State.modChain_chain_same ..
  have hchains : ∀ e, ((chainChannels d).foldl State.settleUnlessFaulted (s.modChain d (Chain.endScan sc))).chain e =
      (s.modChain d (Chain.endScan sc)).chain e := fun e => by rw [State.settleAll_eq]; rfl
  refine ⟨_, hexec, ?_, fun e he => ?_, fun c hc => ?_, fun c hc hf => ?_, ?_⟩
  · rw [hchains, hchain]
  · rw [hchains, State.modChain_chain_other _ _ _ _ he]
  · rw [State.settleAll_chan (chainChannels_nodup d), State.settleUnlessFaulted_chan]
    split
    · rename_i hmem
      exact if_pos (hc.resolve_left fun hne => hne (mem_chainChannels.mp hmem))
    · rfl
  · have hboard : (s.modChain d (Chain.endScan sc)).boardEntry c = sc.found[boardOf c] := by
      rw [State.boardEntry, hc, hchain]
    rw [State.settleAll_chan (chainChannels_nodup d), if_pos (mem_chainChannels.mpr hc), State.settleUnlessFaulted_chan,
      State.modChain_chan, if_neg hf, hboard]
  · rw [State.settleAll_eq]
    rfl

end Sys2Proof.Machine
end

section
/-! PROOFS. Drive frames and report frames bit by bit (R203, R204). -/

namespace Sys2Proof.Machine

/-- The upper 24 bits of a drive frame's word are its upper number. -/
theorem DriveFrame.word_extract (f : DriveFrame) {k n : Nat} (h : k + n ≤ 24) :
    f.word.extractLsb' (8 + k) n = BitVec.ofNat n (f.upper / 2 ^ k) := by
  refine BitVec.eq_of_getLsbD_eq fun i hi => ?_
  rw [BitVec.getLsbD_extractLsb', DriveFrame.word, BitVec.getLsbD_append, BitVec.getLsbD_ofNat, BitVec.getLsbD_ofNat,
    Nat.testBit_div_two_pow, decide_eq_true hi, if_neg (by omega), decide_eq_true (show 8 + k + i - 8 < 24 by omega),
    show 8 + k + i - 8 = i + k by omega, Bool.true_and]

theorem DriveFrame.word_field (f : DriveFrame) {k n : Nat} (h : k + n ≤ 24) :
    (f.word.extractLsb' (8 + k) n).toNat = f.upper / 2 ^ k % 2 ^ n := by
  rw [f.word_extract h, BitVec.toNat_ofNat]

/-- The check of a drive frame is the CRC-8 of its three upper bytes (R199). -/
theorem DriveFrame.word_check (f : DriveFrame) : f.word.extractLsb' 0 8 =
    crc8 [f.word.extractLsb' 24 8, f.word.extractLsb' 16 8, f.word.extractLsb' 8 8] := by
  have hlow : f.word.extractLsb' 0 8 = crc8 (bytesOf 3 f.upper) := BitVec.extractLsb'_append_eq_right
  rw [hlow, f.word_extract (k := 16) (n := 8) (by decide), f.word_extract (k := 8) (n := 8) (by decide),
    f.word_extract (k := 0) (n := 8) (by decide)]
  rfl

/-- The fields of a frame's word, given its upper number by kind, board, output, tag and value. -/
theorem DriveFrame.word_layout {f : DriveFrame} {kind value : Nat} {b : Fin 4} {o : Fin 8} {tag : BitVec 2}
    (h : f.upper = kind * 2097152 + b.val * 524288 + o.val * 65536 + tag.toNat * 16384 + value) (hk : kind < 8)
    (hv : value < 16384) :
    (f.word.extractLsb' 29 3).toNat = kind ∧ (f.word.extractLsb' 27 2).toNat = b.val ∧
      (f.word.extractLsb' 24 3).toNat = o.val ∧ f.word.extractLsb' 22 2 = tag ∧
      (f.word.extractLsb' 8 14).toNat = value := by
  have htag := tag.isLt
  refine ⟨?_, ?_, ?_, BitVec.eq_of_toNat_eq ?_, ?_⟩
  · rw [f.word_field (k := 21) (n := 3) (by decide)]; omega
  · rw [f.word_field (k := 19) (n := 2) (by decide)]; omega
  · rw [f.word_field (k := 16) (n := 3) (by decide)]; omega
  · rw [f.word_field (k := 14) (n := 2) (by decide)]; omega
  · rw [f.word_field (k := 0) (n := 14) (by decide)]; omega

theorem decodeReport_msb {w : BitVec 32}
    (hcrc : crc8 [w.extractLsb' 24 8, w.extractLsb' 16 8, w.extractLsb' 8 8] = w.extractLsb' 0 8) (hm : w.msb = true) :
    decodeReport w = some (.report (.contact (w.extractLsb' 24 2) (w.extractLsb' 8 16).toNat)
      (w.extractLsb' 29 2).toFin (w.extractLsb' 26 3).toFin) := by
  rw [decodeReport, if_neg (by simp [hcrc]), if_pos hm]

theorem decodeReport_plain {w : BitVec 32}
    (hcrc : crc8 [w.extractLsb' 24 8, w.extractLsb' 16 8, w.extractLsb' 8 8] = w.extractLsb' 0 8) (hm : w.msb = false) :
    decodeReport w = decodePlainReport w := by
  rw [decodeReport, if_neg (by simp [hcrc]), if_neg (by simp [hm])]

/-- Settles O39: the fields of a drive frame from its upper number, and a report frame kind by kind. -/
theorem driveFramesAreLaidOut : Obligations.DriveFramesAreLaidOut := by
  refine ⟨fun b o tag value hv => ⟨?_, ?_, ?_, ?_, ?_, ?_⟩, fun w b o hcrc => ⟨fun hm hb ho => ?_, fun hm hb ho => ?_⟩⟩
  · rintro w rfl
    obtain ⟨hkind, hboard, houtput, htag, hvalue⟩ := DriveFrame.word_layout (f := .fire b o tag value) rfl (by decide) hv
    exact ⟨BitVec.eq_of_toNat_eq hkind, hboard, houtput, htag, hvalue⟩
  · rintro w rfl
    obtain ⟨hkind, hboard, houtput, htag, hvalue⟩ := DriveFrame.word_layout (f := .holdOn b o tag value) rfl (by decide) hv
    exact ⟨BitVec.eq_of_toNat_eq hkind, hboard, houtput, htag, hvalue⟩
  · rintro w rfl
    obtain ⟨hkind, hboard, houtput, htag, hvalue⟩ :=
      DriveFrame.word_layout (f := .holdOff b o tag) (value := 0) (Nat.add_zero _).symm (by decide) (by decide)
    exact ⟨BitVec.eq_of_toNat_eq hkind, hboard, houtput, htag, BitVec.eq_of_toNat_eq hvalue⟩
  · rintro w rfl
    have hupper : (DriveFrame.ping b).upper = 4 * 2097152 + b.val * 524288 := rfl
    refine ⟨BitVec.eq_of_toNat_eq ?_, ?_, BitVec.eq_of_toNat_eq ?_⟩
    · rw [DriveFrame.word_field _ (k := 21) (n := 3) (by decide), hupper, show (4 : BitVec 3).toNat = 4 from rfl]; omega
    · rw [DriveFrame.word_field _ (k := 19) (n := 2) (by decide), hupper]; omega
    · rw [DriveFrame.word_field _ (k := 0) (n := 19) (by decide), hupper, show (0 : BitVec 19).toNat = 0 from rfl]; omega
  · rintro w rfl
    have hupper : DriveFrame.safeAll.upper = 7 * 2097152 := rfl
    refine ⟨BitVec.eq_of_toNat_eq ?_, BitVec.eq_of_toNat_eq ?_⟩
    · rw [DriveFrame.word_field _ (k := 21) (n := 3) (by decide), hupper]; rfl
    · rw [DriveFrame.word_field _ (k := 0) (n := 21) (by decide), hupper]; rfl
  · rintro f w rfl
    exact f.word_check
  · have hboard : b = (w.extractLsb' 29 2).toFin := Fin.ext hb
    have houtput : o = (w.extractLsb' 26 3).toFin := Fin.ext ho
    rw [hboard, houtput, decodeReport_msb hcrc hm]
  · have hboard : b = (w.extractLsb' 26 2).toFin := Fin.ext hb
    have houtput : o = (w.extractLsb' 23 3).toFin := Fin.ext ho
    rw [hboard, houtput, decodeReport_plain hcrc hm]
    refine ⟨fun hk => ?_, fun hk => ?_, fun hk => ?_, fun hk => ?_, fun hk => ?_, decodePlainReport_unknown⟩ <;>
      · rw [decodePlainReport, hk]
        rfl

end Sys2Proof.Machine
end

section
/-! PROOFS. Posting, stopping, flushing and going on: what the requests to a reader make of it (R55 to R59, R71 to R74). -/

namespace Sys2Proof.Machine

/-! ### Posting (R56, R58, R59) -/

theorem Reader.holdsSerial_iff {rd : Reader} {n : BitVec 8} : rd.holdsSerial n = true ↔
    n ∈ rd.queue.map QueueSlot.serial ++ rd.opened.map OpenRec.serial := by
  simp [Reader.holdsSerial]

theorem Reader.freshSerial_of_free {rd : Reader} {n : BitVec 8} (h : rd.holdsSerial n = false) (fuel : Nat) :
    rd.freshSerial fuel n = n := by
  cases fuel with
  | zero => rfl
  | succ fuel => rw [Reader.freshSerial, h, if_neg (by decide)]

/-- A search that ends at a held serial met held serials only. -/
theorem Reader.freshSerial_held {rd : Reader} {fuel : Nat} {n : BitVec 8}
    (h : rd.holdsSerial (rd.freshSerial fuel n) = true) {i : Nat} (hi : i < fuel) :
    rd.holdsSerial (n + BitVec.ofNat 8 i) = true := by
  induction fuel generalizing n i with
  | zero => omega
  | succ fuel ih =>
    cases hn : rd.holdsSerial n with
    | false =>
      rw [Reader.freshSerial_of_free hn, hn] at h
      cases h
    | true =>
      rw [Reader.freshSerial, hn, if_pos rfl] at h
      cases i with
      | zero => simpa using hn
      | succ i =>
        have hnext := ih h (Nat.lt_of_succ_lt_succ hi)
        rwa [BitVec.add_assoc, show (1 : BitVec 8) + BitVec.ofNat 8 i = BitVec.ofNat 8 (i + 1) by
          rw [Nat.add_comm, BitVec.ofNat_add]; rfl] at hnext

/-- Twelve phrases are held at most while a post finds room, so the search ends at a serial that none holds. -/
theorem Reader.freshSerial_fresh {rd : Reader} (hq : rd.queue.length < 4) (ho : rd.opened.length ≤ 8) (n : BitVec 8) :
    rd.holdsSerial (rd.freshSerial 256 n) = false := by
  rw [← Bool.not_eq_true]
  intro hheld
  let tried := (List.range 12).map fun i => n + BitVec.ofNat 8 i
  have hnodup : tried.Nodup := by
    refine List.nodup_range.map_on fun i hi j hj hij => ?_
    rw [List.mem_range] at hi hj
    have hsame := congrArg BitVec.toNat (BitVec.add_right_inj n |>.mp hij)
    rw [BitVec.toNat_ofNat, BitVec.toNat_ofNat] at hsame
    omega
  have hsub : tried ⊆ rd.queue.map QueueSlot.serial ++ rd.opened.map OpenRec.serial := by
    intro x hx
    obtain ⟨i, hi, rfl⟩ := List.mem_map.mp hx
    rw [List.mem_range] at hi
    exact Reader.holdsSerial_iff.mp (Reader.freshSerial_held hheld (by omega))
  have hlength := (hnodup.subperm hsub).length_le
  simp only [tried, List.length_map, List.length_range, List.length_append] at hlength
  omega

/-- PHRASE_POST with its fields in range while SAFE is not asserted: the start cell, the room and the origin (R58). -/
theorem exec_phrasePost_head {p : Port} {start : BitVec 16} {mode : Byte} {value : BitVec 32} {origin : Origin}
    {head : Head} {s : State} (h : s.Taking) (hsafe : s.safeLow = false) (hstart : start.toNat ≤ 2047)
    (horigin : originOf s.now mode value = some origin)
    (hcell : decodeCell (readCell (s.port p).mem start.toNat) = .head head) :
    exec (.phrasePost p start mode value) s =
      if 4 ≤ (s.port p).reader.queue.length then .next (s.reply p (Reply.bare .queueFull))
      else if !(s.port p).reader.originFits origin head.clock then .next (s.reply p (Reply.bare .state))
      else .next ((s.modReader p (Reader.post start.toNat origin head)).reply p
        ⟨.ok, [(s.port p).reader.freshSerial 256 (s.port p).reader.nextSerial]⟩) := by
  rw [exec_of_taking (body := phrasePostBody p start mode value) rfl h]
  simp only [phrasePostBody, horigin, hcell]
  rw [if_neg (by omega), if_neg (by simp [hsafe])]
  split
  · rfl
  · split <;> rfl

theorem phrasePostBody_notHead {p : Port} {start : BitVec 16} {mode : Byte} {value : BitVec 32} {origin : Origin}
    {s : State} (hsafe : s.safeLow = false) (hstart : start.toNat ≤ 2047)
    (horigin : originOf s.now mode value = some origin)
    (hcell : ∀ h, decodeCell (readCell (s.port p).mem start.toNat) ≠ .head h) :
    phrasePostBody p start mode value s = refuse .badPhrase s := by
  simp only [phrasePostBody, horigin]
  rw [if_neg (by omega), if_neg (by simp [hsafe])]

theorem Reader.fitsAfter_queued {rd : Reader} {q : QueueSlot} (h : rd.queue.getLast? = some q) (clock : PhraseClock) :
    rd.fitsAfter clock = true ↔ q.head.clock = clock ∧ q.head.length ≠ 0 := by
  simp [Reader.fitsAfter, h]

theorem Reader.fitsAfter_current {rd : Reader} (hq : rd.queue = []) {o : OpenRec} (h : rd.current = some o)
    (clock : PhraseClock) : rd.fitsAfter clock = true ↔ o.clock = clock ∧ o.length ≠ 0 := by
  simp [Reader.fitsAfter, hq, h]

theorem Reader.fitsAfter_chainEnd {rd : Reader} (hq : rd.queue = []) (h : rd.current = none) (clock : PhraseClock) :
    rd.fitsAfter clock = true ↔ ∃ e, rd.chainEnd = some e ∧ e.clock = clock := by
  cases he : rd.chainEnd <;> simp [Reader.fitsAfter, hq, h, he]

/-- Settles O26: the checks in order, the search for a serial, and the table of origins. -/
theorem postsQueueTheirPhrase : Obligations.PostsQueueTheirPhrase := by
  refine ⟨fun p start mode value origin head s h hsafe hstart horigin => ⟨fun hcell => ?_, fun hcell hfull => ?_,
    fun hcell hroom hfit => ?_, fun hcell hroom hopen hfit => ?_⟩, fun now value => ⟨rfl, rfl, fun h => ?_, fun h => ?_, rfl⟩,
    fun rd clock => ⟨fun t => beq_iff_eq, beq_iff_eq, fun t => beq_iff_eq, fun d => beq_iff_eq, fun q hq => ?_,
      fun hq o ho => ?_, fun hq hc => ?_⟩⟩
  · exact exec_of_refused (body := phrasePostBody p start mode value) rfl h
      (phrasePostBody_notHead hsafe hstart horigin hcell)
  · rw [exec_phrasePost_head h hsafe hstart horigin hcell, if_pos hfull]
  · rw [exec_phrasePost_head h hsafe hstart horigin hcell, if_neg (not_le.mpr hroom), hfit, if_pos (by decide)]
  · have hfresh := Reader.freshSerial_fresh hroom hopen (s.port p).reader.nextSerial
    rw [← Bool.not_eq_true, Reader.holdsSerial_iff, List.mem_append, not_or, List.mem_map, List.mem_map] at hfresh
    obtain ⟨hqueue, hopened⟩ := hfresh
    refine ⟨(s.port p).reader.freshSerial 256 (s.port p).reader.nextSerial, ?_, fun q hq hs => hqueue ⟨q, hq, hs⟩,
      fun o ho hs => hopened ⟨o, ho, hs⟩, fun hfree => Reader.freshSerial_of_free hfree 256⟩
    rw [exec_phrasePost_head h hsafe hstart horigin hcell, if_neg (not_le.mpr hroom), hfit, if_neg (by decide)]
    rfl
  · exact if_pos h
  · exact if_pos h
  · exact Reader.fitsAfter_queued hq clock
  · exact Reader.fitsAfter_current hq ho clock
  · exact Reader.fitsAfter_chainEnd hq hc clock

/-! ### Leaving READING (R57, R71) -/

theorem Reader.current_of_readingCount {rd : Reader} (h : rd.readingCount = 0) : rd.current = none := by
  rw [Reader.readingCount, List.length_eq_zero_iff, List.filter_eq_nil_iff] at h
  rw [Reader.current, List.find?_eq_none]
  exact h

theorem Reader.current_mem {rd : Reader} {o : OpenRec} (h : rd.current = some o) :
    o ∈ rd.opened ∧ o.reading = .reading :=
  ⟨List.mem_of_find?_eq_some h, by simpa using List.find?_some h⟩

/-- Where at most one record is READING, the current phrase is the only one. -/
theorem Reader.current_unique {rd : Reader} (h : rd.readingCount ≤ 1) {o y : OpenRec} (ho : rd.current = some o)
    (hy : y ∈ rd.opened) (hread : y.reading = .reading) : y = o := by
  obtain ⟨hmem, hreado⟩ := Reader.current_mem ho
  have hyf : y ∈ rd.opened.filter fun x => x.reading == .reading := List.mem_filter.mpr ⟨hy, by simp [hread]⟩
  have hof : o ∈ rd.opened.filter fun x => x.reading == .reading := List.mem_filter.mpr ⟨hmem, by simp [hreado]⟩
  rw [Reader.readingCount] at h
  generalize rd.opened.filter _ = l at h hyf hof
  match l, h with
  | [], _ => cases hyf
  | [x], _ => rw [List.mem_singleton.mp hyf, List.mem_singleton.mp hof]

/-- The current phrase leaves READING, and no phrase is current. -/
theorem PortRec.leaveReading_current {r : PortRec} (h : r.reader.readingCount ≤ 1) (now : StageTime)
    {next : ReadingState} (hnext : next ≠ .reading) : (r.leaveReading now next).reader.readingCount = 0 := by
  unfold PortRec.leaveReading
  split
  · rename_i o ho
    refine Nat.le_zero.mp (((PortRec.finishIfDone_worked ..).reading).trans ?_)
    refine (List.length_eq_zero_iff.mpr (List.filter_eq_nil_iff.mpr fun y hy => ?_)).le
    obtain ⟨x, hx, rfl⟩ := List.mem_map.mp hy
    split
    · simpa using hnext
    · rename_i hs
      simp only [beq_iff_eq]
      exact fun hread => hs (by rw [Reader.current_unique h ho hx hread])
  · exact Reader.readingCount_of_no_current (by assumption)

theorem Reader.isHeld_iff {rd : Reader} : rd.isHeld = true ↔ ∃ c, rd.state = .held c := by
  unfold Reader.isHeld
  split
  · rename_i c hc
    exact ⟨fun _ => ⟨c, hc⟩, fun _ => rfl⟩
  · rename_i hnone
    exact ⟨fun hf => absurd hf (by decide), fun ⟨c, hc⟩ => absurd hc (hnone c)⟩

theorem PortRec.settleNow_reader (now : StageTime) (r : PortRec) :
    (r.settleNow now).reader = { r.reader with state := r.reader.settledState } := by
  unfold PortRec.settleNow
  split <;> rfl

theorem PortRec.settle_reader (now : StageTime) (r : PortRec) : (r.settle now).reader =
    { r.reader with state := if r.reader.isHeld then r.reader.state else r.reader.settledState } := by
  unfold PortRec.settle
  split
  · rfl
  · exact PortRec.settleNow_reader now r

/-- The states that settling can reach: none of them is HELD. -/
theorem Reader.settledState_not_held (rd : Reader) (c : HoldCause) : rd.settledState ≠ .held c := by
  unfold Reader.settledState
  split
  · exact PortState.noConfusion
  · split <;> exact PortState.noConfusion

theorem PortRec.settleNow_not_held (now : StageTime) (r : PortRec) : (r.settleNow now).reader.isHeld = false := by
  rw [← Bool.not_eq_true, Reader.isHeld_iff, PortRec.settleNow_reader]
  exact fun ⟨c, hc⟩ => r.reader.settledState_not_held c hc

/-- A reader with nothing queued and nothing current settles by its open list. -/
theorem Reader.settledState_of_cleared {rd : Reader} (hq : rd.queue = []) (hc : rd.current = none) :
    rd.settledState = if rd.opened = [] then .idle else .draining := by
  simp [Reader.settledState, hq, hc]

/-! ### PORT_STOP and PORT_FLUSH (R72, R73) -/

/-- A port after PORT_STOP in mode NOW, but for the settling: nothing is queued, current or at the chain's end. -/
structure PortRec.Cleared (discards : Nat) (r : PortRec) : Prop where
  queue : r.reader.queue = []
  reading : r.reader.readingCount = 0
  chainEnd : r.reader.chainEnd = none
  discards : r.reader.discards = discards

theorem PortRec.stopNow_cleared {r : PortRec} (h : r.reader.readingCount ≤ 1) (now : StageTime) :
    (r.stopNow now).Cleared (min (r.reader.discards + r.reader.queue.length) 65535) := by
  have hleft := PortRec.leaveReading_worked now (next := .cut) (by decide) (r.modReader Reader.discardQueue)
  exact ⟨hleft.queue, PortRec.leaveReading_current (r := r.modReader Reader.discardQueue) h now (by decide), rfl, hleft.discards⟩

theorem PortRec.Worked.cleared {n : Nat} {r r' : PortRec} (h : r.Worked r') (hr : r.Cleared n) : r'.Cleared n :=
  ⟨h.queue.trans hr.queue, Nat.le_zero.mp (hr.reading ▸ h.reading), h.chainEnd.trans hr.chainEnd,
    h.discards.trans hr.discards⟩

theorem exec_portStop (p : Port) {s : State} (h : s.Taking) :
    exec (.portStop p 0) s =
        .next ((s.modPort p fun r => (r.modReader Reader.discardQueue).settle s.now).reply p (Reply.bare .ok)) ∧
      exec (.portStop p 1) s = .next ((s.modPort p fun r => (r.stopNow s.now).settle s.now).reply p (Reply.bare .ok)) ∧
      exec (.portStop p 2) s = .next ((((s.modPort p (PortRec.stopNow s.now)).withdraw (fun ref => ref.port == p)
        .withdrawn).modPort p (PortRec.settle s.now)).reply p (Reply.bare .ok)) :=
  ⟨exec_of_taking (body := portStopBody p 0) rfl h, exec_of_taking (body := portStopBody p 1) rfl h,
    exec_of_taking (body := portStopBody p 2) rfl h⟩

/-- A request that changes its own port and replies: what the port, its link and the others are then. -/
theorem State.modPort_reply_port (s : State) (p : Port) (f : PortRec → PortRec) (y : Reply) :
    ((s.modPort p f).reply p y).port p = { f (s.port p) with link := { (f (s.port p)).link with reply := some y } } := by
  rw [State.reply, State.modPort_port_same, State.modPort_port_same]

theorem State.modPort_reply_other (s : State) {p q : Port} (h : q ≠ p) (f : PortRec → PortRec) (y : Reply) :
    ((s.modPort p f).reply p y).port q = s.port q := by
  rw [State.reply, State.modPort_port_other _ _ _ _ h, State.modPort_port_other _ _ _ _ h]

/-- A withdrawal of one port's references reaches another port by TIMELINE_HIGH alone. -/
theorem State.withdraw_port_other (s : State) {p q : Port} (h : q ≠ p) (code : OutcomeCode) :
    (s.withdraw (fun ref => ref.port == p) code).port q = { s.port q with
      unit := (s.port q).unit.judge s.now .timelineHigh (decide (s.settings.highMark ≤ s.timeline.length))
        (decide (s.settings.highMark ≤ (withdrawFrom (fun ref => ref.port == p) s.timeline).length)) } := by
  rw [State.withdraw, State.foldl_deliver_other (fun x : OwnerRef × OutcomeData => x.1) (fun x => x.2),
    State.withTimeline_port]
  intro x hx
  obtain ⟨e, -, hx⟩ := List.mem_flatMap.mp hx
  obtain ⟨o, ho, rfl⟩ := List.mem_map.mp hx
  have hport : o.port = p := by simpa using (List.mem_filter.mp ho).2
  exact hport ▸ Ne.symm h

/-- The flush settles a cleared port by its open list alone. -/
theorem PortRec.settleNow_of_cleared {n : Nat} {r : PortRec} (h : r.Cleared n) (now : StageTime) : r.settleNow now = { r with
    reader := { r.reader with state := if r.reader.opened = [] then .idle else .draining },
    unit := if r.reader.opened = [] ∧ r.reader.state ≠ .idle then r.unit.raise now .portIdle else r.unit } := by
  have hset := Reader.settledState_of_cleared h.queue (Reader.current_of_readingCount h.reading)
  unfold PortRec.settleNow
  rw [hset]
  by_cases ho : r.reader.opened = []
  · by_cases hs : r.reader.state = .idle
    · simp [ho, hs]
    · simp [ho, hs, PortRec.modUnit]
  · simp [ho]

/-- What becomes of the records when the current phrase is cut (R71, R72). -/
theorem PortRec.stopNow_of_no_current {r : PortRec} (h : r.reader.current = none) (now : StageTime) : r.stopNow now = { r with
    reader := { r.reader with
      queue := [], discards := min (r.reader.discards + r.reader.queue.length) 65535, chainEnd := none } } := by
  have hcur : (r.modReader Reader.discardQueue).reader.current = none := h
  rw [PortRec.stopNow, PortRec.leaveReading, hcur]
  rfl

/-- The record of a serial that one record holds, after a change of that serial's records. -/
theorem Reader.record_modRecord {rd : Reader} {o : OpenRec} (hmem : o ∈ rd.opened)
    (huniq : ∀ y ∈ rd.opened, y.serial = o.serial → y = o) {f : OpenRec → OpenRec} (hf : (f o).serial = o.serial) :
    (rd.modRecord o.serial f).record o.serial = some (f o) := by
  cases hfind : (rd.modRecord o.serial f).record o.serial with
  | none =>
    rw [Reader.record, List.find?_eq_none] at hfind
    refine absurd ?_ (hfind (f o) (List.mem_map.mpr ⟨o, hmem, if_pos rfl⟩))
    simpa using hf
  | some z =>
    have hz := List.mem_of_find?_eq_some hfind
    have hserial : z.serial = o.serial := by simpa using List.find?_some hfind
    obtain ⟨y, hy, rfl⟩ := List.mem_map.mp hz
    by_cases hys : y.serial = o.serial
    · rw [if_pos hys, huniq y hy hys]
    · rw [if_neg hys] at hserial
      exact absurd hserial hys

theorem Reader.filter_modRecord (rd : Reader) (n : BitVec 8) {f : OpenRec → OpenRec} (hf : ∀ o, (f o).serial = o.serial) :
    (rd.modRecord n f).opened.filter (fun y => y.serial != n) = rd.opened.filter fun y => y.serial != n := by
  rw [Reader.modRecord]
  induction rd.opened with
  | nil => rfl
  | cons y ys ih =>
    rw [List.map_cons, List.filter_cons, List.filter_cons, ih]
    by_cases hy : y.serial = n
    · simp [hy, hf]
    · simp [hy]

/-- Settling does not look at the chain's end. -/
theorem PortRec.settle_setChainEnd (now : StageTime) (e : Option ChainEnd) (r : PortRec) :
    (r.settle now).modReader (fun rd => { rd with chainEnd := e }) =
      (r.modReader fun rd => { rd with chainEnd := e }).settle now := by
  have hsettleNow : (r.settleNow now).modReader (fun rd => { rd with chainEnd := e }) =
      (r.modReader fun rd => { rd with chainEnd := e }).settleNow now := apply_ite ..
  refine (apply_ite (PortRec.modReader _) _ _ _).trans ?_
  rw [hsettleNow]
  rfl

/-- A current phrase that is cut, with the question whether it is done still to ask (R71, R72). -/
def PortRec.cutCurrent (o : OpenRec) (r : PortRec) : PortRec :=
  (r.modReader Reader.discardQueue).modReader (Reader.modRecord o.serial fun x => { x with reading := .cut })

theorem PortRec.stopNow_of_current {r : PortRec} {o : OpenRec} (ho : r.reader.current = some o) (now : StageTime) :
    r.stopNow now =
      ((r.cutCurrent o).finishIfDone now o.serial).modReader fun rd => { rd with chainEnd := none } := by
  have hcur : (r.modReader Reader.discardQueue).reader.current = some o := ho
  rw [PortRec.stopNow, PortRec.leaveReading, hcur]
  rfl

theorem PortRec.cutCurrent_record {r : PortRec} {o : OpenRec} (ho : r.reader.current = some o)
    (huniq : ∀ y ∈ r.reader.opened, y.serial = o.serial → y = o) :
    (r.cutCurrent o).reader.record o.serial = some { o with reading := .cut } :=
  Reader.record_modRecord (rd := r.reader.discardQueue) (Reader.current_mem ho).1 huniq rfl

theorem PortRec.stopNow_of_outstanding {r : PortRec} {o : OpenRec} (ho : r.reader.current = some o)
    (huniq : ∀ y ∈ r.reader.opened, y.serial = o.serial → y = o) (hout : o.outstanding ≠ 0) {now : StageTime} :
    r.stopNow now = { r with reader := { r.reader with
      queue := [], discards := min (r.reader.discards + r.reader.queue.length) 65535, chainEnd := none,
      opened := r.reader.opened.map fun y => if y.serial = o.serial then { y with reading := .cut } else y } } := by
  rw [PortRec.stopNow_of_current ho, PortRec.finishIfDone, PortRec.cutCurrent_record ho huniq]
  simp only [decide_eq_false hout, Bool.and_false, if_neg Bool.false_ne_true]
  rfl

theorem PortRec.stopNow_of_done {r : PortRec} {o : OpenRec} (ho : r.reader.current = some o)
    (huniq : ∀ y ∈ r.reader.opened, y.serial = o.serial → y = o) (hout : o.outstanding = 0) {now : StageTime} :
    r.stopNow now = PortRec.settle now { r with
      reader := { r.reader with
        queue := [], discards := min (r.reader.discards + r.reader.queue.length) 65535, chainEnd := none,
        opened := r.reader.opened.filter fun y => y.serial != o.serial },
      unit := r.unit.raise now .phraseDone } := by
  have hfilter := Reader.filter_modRecord r.reader.discardQueue o.serial (f := fun x => { x with reading := .cut })
    fun _ => rfl
  rw [PortRec.stopNow_of_current ho, PortRec.finishIfDone, PortRec.cutCurrent_record ho huniq]
  simp only [decide_eq_true hout, Bool.and_true]
  rw [if_pos (by decide), PortRec.settle_setChainEnd]
  refine congrArg (PortRec.settle now) ?_
  simp only [PortRec.modReader, PortRec.modUnit, PortRec.cutCurrent, hfilter]
  rfl

/-- Settles O27: the port after each request is a cleared port that worked on; the other ports are reached by the
withdrawal alone. -/
theorem stopsAndFlushesClearTheReader : Obligations.StopsAndFlushesClearTheReader := by
  intro p discards s h hread hdisc
  obtain ⟨hend, hnow, hcut⟩ := exec_portStop p h
  have hcleared : ((s.port p).stopNow s.now).Cleared discards := hdisc ▸ PortRec.stopNow_cleared hread s.now
  have hlink := PortRec.stopNow_link s.now (s.port p)
  refine ⟨⟨_, hend, ?_, ?_, fun q hq => State.modPort_reply_other _ hq _ _, rfl⟩, ⟨_, hnow, ?_⟩, ⟨_, hcut, ?_⟩,
    ⟨_, exec_of_taking (body := portFlushBody p) rfl h, ?_⟩, ?_⟩
  · rw [State.modPort_reply_port, PortRec.settle_reader]
    rw [hdisc]
    simp [PortRec.modReader, Reader.discardQueue, Reader.settledState, Reader.current, Reader.isHeld]
  · rw [State.modPort_reply_port, PortRec.settle_link]
    rfl
  · have hport := s.modPort_reply_port p (fun r => (r.stopNow s.now).settle s.now) (Reply.bare .ok)
    have hsettled := (PortRec.settle_worked s.now _).cleared hcleared
    rw [hport]
    refine ⟨hsettled.queue, Reader.current_of_readingCount hsettled.reading, hsettled.chainEnd, hsettled.discards, ?_,
      fun q hq => State.modPort_reply_other _ hq _ _, rfl, rfl⟩
    simp only [PortRec.settle_link, hlink]
  · have hw := (s.modPort p (PortRec.stopNow s.now)).withdraw_worked (fun ref => ref.port == p) .withdrawn
    have hself : (s.modPort p (PortRec.stopNow s.now)).port p = (s.port p).stopNow s.now := State.modPort_port_same ..
    have hwp := hw.port p
    rw [show State.port { s.modPort p (PortRec.stopNow s.now) with
        timeline := withdrawFrom (fun ref => ref.port == p) (s.modPort p (PortRec.stopNow s.now)).timeline } p =
      (s.port p).stopNow s.now from hself] at hwp
    have hsettled := (hwp.trans (PortRec.settle_worked s.now _)).cleared hcleared
    have htl : ((s.modPort p (PortRec.stopNow s.now)).withdraw (fun ref => ref.port == p) .withdrawn).timeline =
        withdrawFrom (fun ref => ref.port == p) s.timeline := by rw [State.withdraw_eq]; rfl
    have hfinal : ((((s.modPort p (PortRec.stopNow s.now)).withdraw (fun ref => ref.port == p) .withdrawn).modPort p
        (PortRec.settle s.now)).reply p (Reply.bare .ok)).timeline = withdrawFrom (fun ref => ref.port == p) s.timeline :=
      htl
    refine ⟨?_, ?_, ?_, ?_, ?_, fun e he => ?_, ?_, fun q hq => ?_, ?_, ?_⟩
    · rw [State.modPort_reply_port]
      exact hsettled.queue
    · rw [State.modPort_reply_port]
      exact Reader.current_of_readingCount hsettled.reading
    · rw [State.modPort_reply_port]
      exact hsettled.chainEnd
    · rw [State.modPort_reply_port]
      exact hsettled.discards
    · rw [State.modPort_reply_port]
      simp only [PortRec.settle_link, hwp.link, hlink]
    · exact (mem_withdrawFrom_port (htl ▸ he)).2
    · exact htl.trans (withdrawFrom_port p s.timeline)
    · rw [hfinal, State.modPort_reply_other _ hq, State.withdraw_port_other _ hq, State.modPort_port_other _ _ _ _ hq]
      rfl
    · rw [State.withdraw_eq]
      rfl
    · rw [hfinal]
      rfl
  · have hsettled := (PortRec.settleNow_worked s.now _).cleared hcleared
    have hport := s.modPort_reply_port p (fun r => (r.stopNow s.now).settleNow s.now) (Reply.bare .ok)
    change (State.reply _ p (Reply.bare .ok)).port p = _ at hport
    refine ⟨?_, ?_, ?_, ?_, ?_, ?_, fun q hq => State.modPort_reply_other _ hq _ _, rfl, ?_⟩
    · exact (congrArg (fun r => r.reader.queue) hport).trans hsettled.queue
    · exact (congrArg (fun r => r.reader.current) hport).trans (Reader.current_of_readingCount hsettled.reading)
    · exact (congrArg (fun r => r.reader.chainEnd) hport).trans hsettled.chainEnd
    · exact (congrArg (fun r => r.reader.discards) hport).trans hsettled.discards
    · refine (congrArg (fun r => r.link) hport).trans ?_
      simp only [PortRec.settleNow_link, hlink]
    · exact (congrArg (fun r => r.reader.isHeld) hport).trans (PortRec.settleNow_not_held ..)
    · rintro r rfl
      refine hport.trans ?_
      simp only [PortRec.settleNow_of_cleared hcleared]
  · rintro r emptied rfl rfl
    refine ⟨fun hc => ?_, fun o ho huniq => ⟨fun hout => ?_, fun hout => ?_⟩⟩
    · rw [PortRec.stopNow_of_no_current hc, hdisc]
    · rw [PortRec.stopNow_of_outstanding ho huniq hout, hdisc]
    · rw [PortRec.stopNow_of_done ho huniq hout, hdisc]

/-! ### PORT_GO (R74) -/

theorem PortRec.errorCurrent_of_current {r : PortRec} {o : OpenRec} (ho : r.reader.current = some o) (now : StageTime) :
    r.errorCurrent now = (r.modReader fun rd => { rd with chainEnd := o.erroredEnd }).leaveReading now .errored := by
  rw [PortRec.errorCurrent, ho]

/-- A port held by a program error is left with its queue, no current phrase, and the errored phrase's end (R74). -/
theorem PortRec.errorCurrent_left {r : PortRec} (h : r.reader.readingCount ≤ 1) (now : StageTime) :
    (r.errorCurrent now).reader.readingCount = 0 ∧ (r.errorCurrent now).reader.queue = r.reader.queue ∧
      ∀ o, r.reader.current = some o → (r.errorCurrent now).reader.chainEnd = o.erroredEnd := by
  cases ho : r.reader.current with
  | none =>
    rw [PortRec.errorCurrent, ho]
    exact ⟨Reader.readingCount_of_no_current ho, rfl, nofun⟩
  | some o =>
    have hw := PortRec.leaveReading_worked now (next := .errored) (by decide)
      (r.modReader fun rd => { rd with chainEnd := o.erroredEnd })
    have hcount := PortRec.leaveReading_current (r := r.modReader fun rd => { rd with chainEnd := o.erroredEnd })
      h now (next := .errored) (by decide)
    rw [PortRec.errorCurrent_of_current ho]
    refine ⟨hcount, hw.queue, ?_⟩
    rintro o' ⟨⟩
    exact hw.chainEnd

/-- PORT_GO while SAFE is not asserted, by the hold it leaves (R74). -/
theorem exec_portGo_program {p : Port} {s : State} (h : s.Taking) (hsafe : s.safeLow = false) {e : ProgramError}
    (hs : (s.port p).reader.state = .held (.program e)) : exec (.portGo p) s =
      .next ((s.modPort p fun r => (r.errorCurrent s.now).settleNow s.now).reply p (Reply.bare .ok)) := by
  rw [exec_of_taking (body := portGoBody p) rfl h]
  simp only [portGoBody, hsafe, if_neg Bool.false_ne_true, hs]
  rfl

theorem exec_portGo_held {p : Port} {s : State} (h : s.Taking) (hsafe : s.safeLow = false)
    (hs : (s.port p).reader.state = .held .faultStop ∨ (s.port p).reader.state = .held .safe) : exec (.portGo p) s =
      .next ((s.modPort p (PortRec.settleNow s.now)).reply p (Reply.bare .ok)) := by
  rw [exec_of_taking (body := portGoBody p) rfl h]
  rcases hs with hs | hs
  · simp only [portGoBody, hsafe, if_neg Bool.false_ne_true, hs]
    rfl
  · simp only [portGoBody, hsafe, if_neg Bool.false_ne_true, hs]
    rfl

theorem portGoBody_of_not_held {p : Port} {s : State} (hsafe : s.safeLow = false)
    (hs : (s.port p).reader.isHeld = false) : portGoBody p s = refuse .state s := by
  rw [← Bool.not_eq_true, Reader.isHeld_iff] at hs
  unfold portGoBody
  rw [if_neg (by simp [hsafe])]
  split
  · rename_i e he
    exact absurd ⟨_, he⟩ hs
  · rename_i c _ hc
    exact absurd ⟨_, hc⟩ hs
  · rfl

/-- Settles O28: by the cause of the hold. -/
theorem goLeavesHeld : Obligations.GoLeavesHeld := by
  intro p s h hsafe hread
  refine ⟨fun hs => ⟨_, exec_portGo_held h hsafe hs, ?_, rfl⟩, fun e hs => ⟨_, exec_portGo_program h hsafe hs, ?_⟩,
    fun hs => exec_of_refused (body := portGoBody p) rfl h (portGoBody_of_not_held hsafe hs)⟩
  · rw [State.modPort_reply_port, PortRec.settleNow_reader]
  · obtain ⟨hcount, hqueue, hend⟩ := PortRec.errorCurrent_left hread s.now
    have hw := PortRec.settleNow_worked s.now ((s.port p).errorCurrent s.now)
    rw [State.modPort_reply_port]
    exact ⟨Reader.current_of_readingCount (Nat.le_zero.mp (hcount ▸ hw.reading)), PortRec.settleNow_not_held ..,
      hw.queue.trans hqueue, fun o ho => hw.chainEnd.trans (hend o ho), rfl⟩

end Sys2Proof.Machine
end

section
/-! PROOFS. Arming: the effective velocity and the figures, the offer to the timeline, and the immediate requests (R77,
R80 to R87, R98, R101, R103 to R105). -/

namespace Sys2Proof.Machine

/-! ### Times -/

theorem minus_plus (t : StageTime) (m n : Nat) : minus (plus t (m + n)) n = plus t m := by
  rw [minus, plus, plus, BitVec.ofNat_add, ← BitVec.add_assoc, BitVec.add_sub_cancel]

theorem minus_plus_self (t : StageTime) (n : Nat) : minus (plus t n) n = t := by
  rw [minus, plus, BitVec.add_sub_cancel]

theorem since_self (t : StageTime) : since t t = 0 := by simp [since]

theorem later_self (t : StageTime) : later t t = false := by simp [later, earlier, since_self]

/-- The late check at arming, by its three answers (R87). -/
theorem sendTime_of_later {tolerance : Nat} {now ideal : StageTime} (h : later ideal now = true) :
    sendTime tolerance now ideal = some ideal := if_pos h

theorem sendTime_of_near {tolerance : Nat} {now ideal : StageTime} (h : later ideal now = false)
    (hnear : since ideal now ≤ tolerance) : sendTime tolerance now ideal = some now := by
  rw [sendTime, h, if_neg (by decide), if_neg (not_lt.mpr hnear)]

theorem sendTime_of_far {tolerance : Nat} {now ideal : StageTime} (h : later ideal now = false)
    (hfar : tolerance < since ideal now) : sendTime tolerance now ideal = none := by
  rw [sendTime, h, if_neg (by decide), if_pos hfar]

theorem sendTime_now (tolerance : Nat) (now : StageTime) : sendTime tolerance now now = some now :=
  sendTime_of_near (later_self now) (by rw [since_self]; exact Nat.zero_le _)

/-! ### Velocity and figures (R80, R82 to R84) -/

theorem effectiveVelocity_muted {v level boost : Nat} {accent : Bool} (h : v * level < 64) :
    effectiveVelocity v level accent boost = none := if_pos h

theorem effectiveVelocity_eq {v level boost : Nat} {accent : Bool} (h : 64 ≤ v * level) :
    effectiveVelocity v level accent boost =
      some (max 1 (min 127 ((2 * (v * level) + 128) / 256 + if accent then boost else 0))) := by
  rw [effectiveVelocity, if_neg (not_lt.mpr h), clampNat_eq_min_max (by decide)]
  generalize v * level = x
  have hhalf : (x + 64) / 128 = (2 * x + 128) / 256 := by omega
  rw [hhalf]
  congr 1
  omega

/-- The segment and the offset of a velocity, the last segment holding its upper end too (R82). -/
theorem segmentOf_eq {i x : Nat} (hi : i < 7) (hx : x ≤ 17 ∨ i = 6 ∧ x = 18) : segmentOf (1 + 18 * i + x) = i := by
  rw [segmentOf]
  omega

theorem offsetOf_eq {i x : Nat} (hi : i < 7) (hx : x ≤ 17 ∨ i = 6 ∧ x = 18) : offsetOf (1 + 18 * i + x) = x := by
  rw [offsetOf, segmentOf_eq hi hx]
  omega

/-- Between two knots that are not negative lies no negative value. -/
theorem interpolate_nonneg (a b : Nat) {x : Nat} (hx : x ≤ 18) : 0 ≤ interpolate a b x := by
  have hrise : -(18 * (a : Int)) ≤ ((b : Int) - a) * x := by
    have hb : 0 ≤ (b : Int) * x := by positivity
    have ha : (a : Int) * x ≤ a * 18 := mul_le_mul_of_nonneg_left (by exact_mod_cast hx) (by positivity)
    rw [sub_mul]
    omega
  rw [interpolate]
  omega

theorem clampNat_toNat_interpolate {lo hi : Nat} (h : lo ≤ hi) (a b : Nat) {x : Nat} (hx : x ≤ 18) :
    ((clampNat lo hi (interpolate a b x).toNat : Nat) : Int) = max (lo : Int) (min (hi : Int) (interpolate a b x)) := by
  have hpos := interpolate_nonneg a b hx
  rw [clampNat_eq_min_max h]
  omega

theorem Channel.knotAt_fin (ch : Channel) {k : Nat} (h : k < 8) : ch.knotAt k = ch.knots[k] := dif_pos h

/-! ### What arming comes to (R68, R69, R77, R86, R87) -/

/-- An entry as arming leaves it to the timeline (R96). -/
def Entry.armed (ref : OwnerRef) (action : Action) (target fire ideal send : StageTime) : Entry :=
  { action := action, target := target, fire := fire, ideal := ideal, send := send, owners := [ref], merged := false,
    retimed := false, immediate := ref.phrase.isNone }

theorem State.armEntry_offer {s : State} {ref : OwnerRef} {action : Action} {target fire ideal send : StageTime}
    (h : sendTime s.settings.tolerance s.now ideal = some send) :
    s.armEntry ref action target fire ideal = .offer (Entry.armed ref action target fire ideal send) := by
  rw [State.armEntry, h]
  rfl

theorem State.armEntry_late {s : State} {ref : OwnerRef} {action : Action} {target fire ideal : StageTime}
    (h : sendTime s.settings.tolerance s.now ideal = none) : s.armEntry ref action target fire ideal =
      .given { OutcomeData.plain .late action.chan with vEff := action.vEff, immediate := ref.phrase.isNone } := by
  rw [State.armEntry, h]

section armStrike
variable {s : State} {ref : OwnerRef} {level velocity : Nat} {accent : Bool} {c : ChanId}
  {target : Figures → StageTime}

theorem State.armStrike_muted (h : effectiveVelocity velocity level accent s.settings.accentBoost = none) :
    s.armStrike ref level velocity accent c target =
      .given { OutcomeData.plain .muted (some c) with immediate := ref.phrase.isNone } := by
  rw [State.armStrike, h]

theorem State.armStrike_unready {v : Nat} {code : OutcomeCode}
    (h : effectiveVelocity velocity level accent s.settings.accentBoost = some v)
    (hc : s.channelCheck c .strike = some code) : s.armStrike ref level velocity accent c target =
      .given { OutcomeData.plain code (some c) with vEff := v, immediate := ref.phrase.isNone } := by
  rw [State.armStrike, h]
  simp only [hc]

theorem State.armStrike_ready {v : Nat} (h : effectiveVelocity velocity level accent s.settings.accentBoost = some v)
    (hc : s.channelCheck c .strike = none) : s.armStrike ref level velocity accent c target =
      s.armEntry ref (.strike c (figuresOf (s.chan c) v)) (target (figuresOf (s.chan c) v))
        (minus (target (figuresOf (s.chan c) v)) ((figuresOf (s.chan c) v).flight * 10))
        (minus (minus (target (figuresOf (s.chan c) v)) ((figuresOf (s.chan c) v).flight * 10))
          s.settings.frameTime) := by
  rw [State.armStrike, h]
  simp only [hc]

end armStrike

theorem State.armHold_unready {s : State} {ref : OwnerRef} {c : ChanId} {code : OutcomeCode}
    (hc : s.channelCheck c .hold = some code) (action : Action) (target : StageTime) :
    s.armHold ref c action target = .given { OutcomeData.plain code (some c) with immediate := ref.phrase.isNone } := by
  rw [State.armHold, hc]

theorem State.armHold_ready {s : State} {ref : OwnerRef} {c : ChanId} (hc : s.channelCheck c .hold = none)
    (action : Action) (target : StageTime) :
    s.armHold ref c action target = s.armEntry ref action target target (minus target s.settings.frameTime) := by
  rw [State.armHold, hc]

/-! ### The offer (R101, R103 to R105) -/

theorem splitFirst_eq_none {α : Type} {fits : α → Bool} {l : List α} (h : ∀ y ∈ l, fits y = false) :
    splitFirst fits l = none := by
  cases hs : splitFirst fits l with
  | none => rfl
  | some x =>
    obtain ⟨pre, y, post⟩ := x
    obtain ⟨rfl, hy, -⟩ := splitFirst_some hs
    exact absurd hy (by simp [h y (by simp)])

theorem splitFirst_eq_some {α : Type} {fits : α → Bool} {pre post : List α} {x : α} (hx : fits x = true)
    (hpre : ∀ y ∈ pre, fits y = false) : splitFirst fits (pre ++ x :: post) = some (pre, x, post) := by
  induction pre with
  | nil => simp [splitFirst, hx]
  | cons y ys ih =>
    rw [List.cons_append, splitFirst, hpre y List.mem_cons_self, if_neg (by decide),
      ih fun z hz => hpre z (List.mem_cons_of_mem _ hz)]

/-- No merge partner: every stroke of the channel lies further off than the window. -/
theorem isPartner_eq_false {window : Nat} {c : ChanId} {target : StageTime} {e : Entry}
    (h : ∀ fig, e.action = .strike c fig → window < distance e.target target) : isPartner window c target e = false := by
  rw [← Bool.not_eq_true, isPartner_iff]
  rintro ⟨⟨fig, hfig⟩, hd⟩
  exact absurd hd (not_le.mpr (h fig hfig))

section offer
variable {e : Entry} {ref : OwnerRef} {s : State}

theorem offerEntry_of_no_partner (h : ∀ c fig, e.action = .strike c fig → ∀ x ∈ s.timeline, ∀ f,
    x.action = .strike c f → s.settings.mergeWindow < distance x.target e.target) :
    offerEntry e ref s = insertOffer e ref.port s := by
  unfold offerEntry
  split
  · rename_i c fig haction
    rw [splitFirst_eq_none fun x hx => isPartner_eq_false (h c fig haction x hx)]
  · rfl

theorem offerEntry_of_partner {c : ChanId} {fig f : Figures} {pre post : List Entry} {partner : Entry}
    (he : e.action = .strike c fig) (htl : s.timeline = pre ++ partner :: post) (hp : partner.action = .strike c f)
    (hnear : distance partner.target e.target ≤ s.settings.mergeWindow)
    (hpre : ∀ x ∈ pre, ∀ g, x.action = .strike c g → s.settings.mergeWindow < distance x.target e.target) :
    offerEntry e ref s = if partner.owners.length < 4 then (.merged, mergeInto c fig ref pre partner post s)
      else (.absorbed, s) := by
  rw [offerEntry, he]
  simp only [htl, splitFirst_eq_some (fits := isPartner s.settings.mergeWindow c e.target)
    (isPartner_iff.mpr ⟨⟨f, hp⟩, hnear⟩) fun x hx => isPartner_eq_false (hpre x hx)]

theorem State.arm_given (o : OutcomeData) : s.arm ref (.given o) = (.given o.code, (s.referenced ref).deliver ref o) := rfl

theorem State.arm_inserted (h : offerEntry e ref s = insertOffer e ref.port s)
    (hroom : admits s.timeline ref.port = true) :
    s.arm ref (.offer e) = (.queued, (s.withTimeline (placeEntry e s.timeline)).referenced ref) := by
  rw [State.arm, h, insertOffer, if_pos hroom]

theorem State.arm_full (h : offerEntry e ref s = insertOffer e ref.port s)
    (hroom : admits s.timeline ref.port = false) : s.arm ref (.offer e) = (.full, s) := by
  rw [State.arm, h, insertOffer, if_neg (by simp [hroom])]

theorem State.arm_merged {t : State} (h : offerEntry e ref s = (.merged, t)) :
    s.arm ref (.offer e) = (.merged, t.referenced ref) := by
  rw [State.arm, h]

theorem State.arm_absorbed (h : offerEntry e ref s = (.absorbed, s)) :
    s.arm ref (.offer e) = (.given .absorbed, (s.referenced ref).deliver ref (e.outcome .absorbed none)) := by
  rw [State.arm, h]

end offer

theorem mergeInto_softer {c : ChanId} {fig : Figures} {partner : Entry} (h : fig.vEff ≤ partner.action.vEff)
    (ref : OwnerRef) (pre post : List Entry) (s : State) :
    mergeInto c fig ref pre partner post s = s.withTimeline (pre ++ partner.joinedBy ref :: post) := by
  rw [mergeInto, if_neg (not_lt.mpr h)]

theorem mergeInto_harder {c : ChanId} {fig : Figures} {partner : Entry} (h : partner.action.vEff < fig.vEff)
    (ref : OwnerRef) (pre post : List Entry) (s : State) : mergeInto c fig ref pre partner post s =
      s.withTimeline (placeEntry ((partner.joinedBy ref).reaim s.now s.settings.frameTime c fig) (pre ++ post)) := by
  rw [mergeInto, if_pos h]

/-- Placing splits the list: nothing before the place is put after, and nothing after it is put before (R98). -/
theorem placeAfter_split {α : Type} (before : α → Bool) (x : α) (l : List α) : ∃ pre post, l = pre ++ post ∧
    placeAfter before x l = pre ++ x :: post ∧ (∀ y ∈ post, before y = false) ∧
      ∀ y, pre.getLast? = some y → before y = true := by
  induction l with
  | nil => exact ⟨[], [], rfl, rfl, by simp, by simp⟩
  | cons y ys ih =>
    rw [placeAfter]
    split
    · rename_i hany
      obtain ⟨pre, post, rfl, hplace, hpost, hpre⟩ := ih
      refine ⟨y :: pre, post, rfl, by rw [hplace]; rfl, hpost, fun z hz => ?_⟩
      cases hlast : pre.getLast? with
      | some w =>
        have hzw : w = z := by simpa [List.getLast?_cons, hlast] using hz
        exact hzw ▸ hpre w hlast
      | none =>
        have hnil : pre = [] := by simpa using hlast
        subst hnil
        have hzy : y = z := by simpa using hz
        obtain ⟨w, hw, hbefore⟩ := List.any_eq_true.mp hany
        rcases List.mem_cons.mp hw with rfl | hw
        · exact hzy ▸ hbefore
        · rw [hpost w hw] at hbefore
          cases hbefore
    · rename_i hany
      refine ⟨[], y :: ys, rfl, rfl, fun z hz => ?_, by simp⟩
      rw [← Bool.not_eq_true]
      exact fun hb => hany (List.any_eq_true.mpr ⟨z, hz, hb⟩)

/-! ### STRIKE and HOLD_SET (R77) -/

theorem State.referenced_bare (s : State) (p : Port) : s.referenced (OwnerRef.bare p) = s := rfl

/-- An accepted STRIKE is armed for a target that its own flight sets (R77, R86). -/
theorem exec_strike {p : Port} {c : ChanId} {v f : Byte} {s : State} (h : s.Taking) (hsafe : s.safeLow = false)
    (hv : 1 ≤ v.toNat) (hv' : v.toNat ≤ 127) (hf : f.toNat ≤ 1) {a : Armed} {t : State}
    (harm : s.arm (OwnerRef.bare p) (s.armStrike (OwnerRef.bare p) (s.port p).reader.level v.toNat (f.getLsbD 0) c
      fun fig => plus s.now (s.settings.frameTime + fig.flight * 10)) = (a, t)) :
    exec (.strike p (BitVec.ofNat 8 c.val) v f) s = .next (t.reply p (armedReply a)) := by
  have hc : (BitVec.ofNat 8 c.val).toNat = c.val := chanByte_toNat c
  rw [exec_of_taking (body := strikeBody p _ v f) rfl h, strikeBody_inRange p (by rw [hc]; exact c.isLt) hv hv' hf]
  simp only [hsafe, if_neg Bool.false_ne_true, hc, Fin.eta, harm]

theorem exec_holdSet {p : Port} {c : ChanId} {a l : Byte} {s : State} (h : s.Taking) (hsafe : s.safeLow = false)
    (ha : a.toNat ≤ 1) (hl : ¬ (a = 0 ∧ l = 0)) {r : Armed} {t : State}
    (harm : s.arm (OwnerRef.bare p) (s.armHold (OwnerRef.bare p) c (holdAction c (a = 1) l.toNat)
      (plus s.now s.settings.frameTime)) = (r, t)) :
    exec (.holdSet p (BitVec.ofNat 8 c.val) a l) s = .next (t.reply p (armedReply r)) := by
  have hc : (BitVec.ofNat 8 c.val).toNat = c.val := chanByte_toNat c
  rw [exec_of_taking (body := holdSetBody p _ a l) rfl h, holdSetBody_inRange p (by rw [hc]; exact c.isLt) ha hl]
  simp only [hsafe, if_neg Bool.false_ne_true, hc, Fin.eta, harm]

theorem Entry.joinedBy_bare (e : Entry) (p : Port) : e.joinedBy (OwnerRef.bare p) =
    { e with owners := e.owners ++ [OwnerRef.bare p], merged := true, immediate := true } := by
  simp [Entry.joinedBy, OwnerRef.bare]

/-- The entry that an immediate stroke on a READY channel offers. -/
def State.strikeEntry (s : State) (p : Port) (c : ChanId) (v : Nat) : Entry :=
  Entry.armed (OwnerRef.bare p) (.strike c (figuresOf (s.chan c) v))
    (plus s.now (s.settings.frameTime + (figuresOf (s.chan c) v).flight * 10)) (plus s.now s.settings.frameTime) s.now s.now

theorem State.armStrike_immediate {s : State} {p : Port} {c : ChanId} {v level velocity : Nat} {accent : Bool}
    (h : effectiveVelocity velocity level accent s.settings.accentBoost = some v)
    (hc : s.channelCheck c .strike = none) :
    (s.armStrike (OwnerRef.bare p) level velocity accent c fun fig => plus s.now (s.settings.frameTime + fig.flight * 10)) =
      .offer (s.strikeEntry p c v) := by
  rw [State.armStrike_ready h hc, minus_plus, minus_plus_self]
  exact State.armEntry_offer (sendTime_now ..)

theorem State.armHold_immediate {s : State} {p : Port} {c : ChanId} (hc : s.channelCheck c .hold = none)
    (action : Action) : s.armHold (OwnerRef.bare p) c action (plus s.now s.settings.frameTime) =
      .offer (Entry.armed (OwnerRef.bare p) action (plus s.now s.settings.frameTime) (plus s.now s.settings.frameTime)
        s.now s.now) := by
  rw [State.armHold_ready hc, minus_plus_self]
  exact State.armEntry_offer (sendTime_now ..)

theorem holdAction_eq {c : ChanId} {action level : Byte} (h : action = 0 ∧ level ≠ 0 ∨ action = 1) :
    holdAction c (action = 1) level.toNat = if action = 0 then .lift c level.toNat else .drop c := by
  rcases h with ⟨rfl, hl⟩ | rfl
  · have hpos : level.toNat ≠ 0 := fun hz => hl (BitVec.eq_of_toNat_eq hz)
    rw [holdAction, if_neg (by decide), if_neg hpos, if_pos rfl]
  · rfl

theorem holdAction_not_strike (c : ChanId) (drop : Bool) (level : Nat) (d : ChanId) (fig : Figures) :
    holdAction c drop level ≠ .strike d fig := by
  cases drop <;> exact Action.noConfusion

/-- Settles O29: the request is exec of its arming, and the arming by the velocity, the channel and the room. -/
theorem immediateRequestsArmAnEntry : Obligations.ImmediateRequestsArmAnEntry := by
  refine ⟨fun p c velocity flags s h hsafe hv hv' hf => ⟨fun hmuted => ?_, fun v hveff => ⟨fun code hcode => ?_,
    fun hready hfar => ?_⟩⟩, fun p c action level s h hsafe haction => ?_,
    fun v level boost accent => ⟨effectiveVelocity_muted, effectiveVelocity_eq⟩, fun ch i x hx hpulse => ?_⟩
  · rw [exec_strike h hsafe hv hv' hf (by rw [State.armStrike_muted hmuted, State.arm_given])]
    rfl
  · rw [exec_strike h hsafe hv hv' hf (by rw [State.armStrike_unready hveff hcode, State.arm_given])]
    rfl
  · have hoffer : offerEntry (s.strikeEntry p c v) (OwnerRef.bare p) s = insertOffer (s.strikeEntry p c v) p s := by
      refine offerEntry_of_no_partner ?_
      rintro c' fig ⟨⟩ x hx f hxf
      exact hfar x hx f hxf
    split
    · rename_i hroom
      rw [exec_strike h hsafe hv hv' hf (by rw [State.armStrike_immediate hveff hready, State.arm_inserted hoffer hroom])]
      rfl
    · rename_i hroom
      rw [Bool.not_eq_true] at hroom
      rw [exec_strike h hsafe hv hv' hf (by rw [State.armStrike_immediate hveff hready, State.arm_full hoffer hroom])]
      rfl
  · have ha : action.toNat ≤ 1 := by rcases haction with ⟨rfl, -⟩ | rfl <;> decide
    have hl : ¬ (action = 0 ∧ level = 0) := by
      rintro ⟨rfl, rfl⟩
      rcases haction with ⟨-, hl⟩ | h1
      · exact hl rfl
      · exact absurd h1 (by decide)
    refine ⟨fun code hcode => ?_, fun hready => ?_⟩
    · rw [exec_holdSet h hsafe ha hl (by rw [State.armHold_unready hcode, State.arm_given])]
      rfl
    · have hoffer : ∀ e : Entry, e.action = holdAction c (action = 1) level.toNat →
          offerEntry e (OwnerRef.bare p) s = insertOffer e p s := fun e he =>
        offerEntry_of_no_partner fun d fig hd => (holdAction_not_strike _ _ _ d fig (he.symm.trans hd)).elim
      rw [← holdAction_eq haction]
      split
      · rename_i hroom
        rw [exec_holdSet h hsafe ha hl (by rw [State.armHold_immediate hready, State.arm_inserted (hoffer _ rfl) hroom])]
        rfl
      · rename_i hroom
        rw [Bool.not_eq_true] at hroom
        rw [exec_holdSet h hsafe ha hl (by rw [State.armHold_immediate hready, State.arm_full (hoffer _ rfl) hroom])]
        rfl
  · have hx' : x ≤ 18 := by omega
    have hi : i.val < 8 := by omega
    have hi' : i.val + 1 < 8 := by omega
    replace hx : x ≤ 17 ∨ i.val = 6 ∧ x = 18 := hx.imp_right fun h => ⟨congrArg Fin.val h.1, h.2⟩
    refine ⟨_, rfl, rfl, segmentOf_eq i.isLt hx, offsetOf_eq i.isLt hx, ?_, ?_⟩
    · simp only [figuresOf, segmentOf_eq i.isLt hx, offsetOf_eq i.isLt hx]
      rw [clampNat_toNat_interpolate hpulse _ _ hx', Channel.knotAt_fin ch hi, Channel.knotAt_fin ch hi', interpolate]
    · simp only [figuresOf, segmentOf_eq i.isLt hx, offsetOf_eq i.isLt hx]
      rw [Int.toNat_of_nonneg (interpolate_nonneg _ _ hx'), Channel.knotAt_fin ch hi, Channel.knotAt_fin ch hi',
        interpolate]

/-- Settles O31: the partner is the first of the list, and the merge by the velocities. -/
theorem strikeMergesIntoItsPartner : Obligations.StrikeMergesIntoItsPartner := by
  refine ⟨fun p c velocity v pre post partner fig s h hsafe hv hv' hveff hready htl haction hnear hpre => ?_,
    fun e l => placeAfter_split _ e l⟩
  have harm := State.armStrike_immediate (p := p) (velocity := velocity.toNat) hveff hready
  have hoffer := offerEntry_of_partner (e := s.strikeEntry p c v) (ref := OwnerRef.bare p) rfl htl haction hnear hpre
  have hpv : partner.action.vEff = fig.vEff := by rw [haction]; rfl
  have hv2 : (figuresOf (s.chan c) v).vEff = v := rfl
  refine ⟨fun hroom hsoft => ?_, fun hroom hhard fire ideal hfire hideal => ?_, fun hfull => ?_⟩
  · rw [if_pos hroom, mergeInto_softer (by rw [hpv, hv2]; exact hsoft)] at hoffer
    rw [exec_strike h hsafe hv hv' (by decide) (by rw [show (0 : Byte).getLsbD 0 = false from rfl, harm,
      State.arm_merged hoffer]), Entry.joinedBy_bare]
    rfl
  · subst hfire hideal
    rw [if_pos hroom, mergeInto_harder (by rw [hpv, hv2]; exact hhard)] at hoffer
    rw [exec_strike h hsafe hv hv' (by decide) (by rw [show (0 : Byte).getLsbD 0 = false from rfl, harm,
      State.arm_merged hoffer]), Entry.joinedBy_bare]
    rfl
  · rw [if_neg (not_lt.mpr hfull)] at hoffer
    rw [exec_strike h hsafe hv hv' (by decide) (by rw [show (0 : Byte).getLsbD 0 = false from rfl, harm,
      State.arm_absorbed hoffer])]
    rfl

end Sys2Proof.Machine
end

section
/-! PROOFS. Timed cells: their targets, and what the reader makes of each (R62 to R70, R75). -/

namespace Sys2Proof.Machine

/-! ### Targets (R63) -/

/-- Two times are as far from each other, around the circle, in the two directions. -/
theorem since_swap (a b : BitVec 32) : a = b ∨ since a b + since b a = 4294967296 := by
  by_cases h : a = b
  · exact .inl h
  · right
    have hne : a.toNat ≠ b.toNat := fun hn => h (BitVec.eq_of_toNat_eq hn)
    have ha := a.isLt
    have hb := b.isLt
    rw [since, since, BitVec.toNat_sub, BitVec.toNat_sub]
    omega

theorem earlier_iff {a b : BitVec 32} : earlier a b = true ↔ 1 ≤ since a b ∧ since a b ≤ 2147483647 := by
  simp [earlier]

theorem since_eq_zero {a b : BitVec 32} : since a b = 0 ↔ a = b := by
  constructor
  · intro h
    exact ((since_swap a b).resolve_right fun hs => by
      have hb := (a - b).isLt
      rw [show (a - b).toNat = since b a from rfl] at hb
      omega)
  · rintro rfl
    exact since_self a

/-- What an earlier tick is not: equal, or later. -/
theorem not_earlier_of_earlier {a b : BitVec 32} (h : earlier a b = true) : earlier b a = false := by
  rw [earlier_iff] at h
  rw [← Bool.not_eq_true, earlier_iff]
  have hne : a ≠ b := fun he => by rw [since_eq_zero.mpr he] at h; omega
  have hswap := (since_swap a b).resolve_left hne
  omega

theorem tickDistance_far {t q : Tick} (h : since t q = 2 ^ 31 ∨ (earlier t q = true ∧ 65536 < since t q)) :
    tickDistance t q = none := by
  rcases h with h | ⟨he, hfar⟩
  · have hne : t ≠ q := fun he => by rw [since_eq_zero.mpr he] at h; omega
    have hswap := (since_swap t q).resolve_left hne
    have h1 : ¬ earlier t q = true := by rw [earlier_iff]; omega
    have h2 : ¬ earlier q t = true := by rw [earlier_iff]; omega
    rw [tickDistance, if_neg h1, if_neg h2, if_neg (Ne.symm hne)]
  · rw [tickDistance, if_pos he, if_neg (not_le.mpr hfar)]

theorem tickDistance_near {t q : Tick} {d : Int} (h : (since t q ≤ 65536 ∧ d = since t q) ∨
    (earlier q t = true ∧ d = max (-65536) (-(since q t : Int)))) : tickDistance t q = some d := by
  rcases h with ⟨hnear, rfl⟩ | ⟨he, rfl⟩
  · by_cases heq : q = t
    · subst heq
      have h1 : ¬ earlier q q = true := by rw [earlier_iff, since_self]; omega
      rw [tickDistance, if_neg h1, if_neg h1, if_pos rfl, since_self]
      rfl
    · have hpos : since t q ≠ 0 := fun hz => heq (since_eq_zero.mp hz).symm
      rw [tickDistance, if_pos (earlier_iff.mpr ⟨by omega, by omega⟩), if_pos hnear]
  · rw [tickDistance, if_neg (by simp [not_earlier_of_earlier he]), if_pos he]

theorem Clock.targetOfTick_none {c : Clock} {q : Tick} (h : tickDistance c.tick q = none) : c.targetOfTick q = none := by
  rw [Clock.targetOfTick, h]

theorem Clock.targetOfTick_some {c : Clock} {q : Tick} {d : Int} (h : tickDistance c.tick q = some d) :
    c.targetOfTick q = some (c.tB + BitVec.ofInt 32
      ((2 * ((d * 2 ^ 32 - c.fraction.toNat) * 500) + c.rate.toNat) / (2 * c.rate.toNat))) := by
  rw [Clock.targetOfTick, h, ← mul_assoc]
  rfl

section targetOf
variable {s : State} {o : OpenRec} {k offset : Nat}

theorem State.targetOf_free (h : o.clock = .free) : s.targetOf o k offset = some (plus (o.passOrigin k) offset) := by
  rw [State.targetOf, h]

theorem State.targetOf_stopped (h : o.clock = .beat) (hr : s.clock.running = false) : s.targetOf o k offset = none := by
  rw [State.targetOf, h]
  simp only [hr, if_neg Bool.false_ne_true]

theorem State.targetOf_running (h : o.clock = .beat) (hr : s.clock.running = true) :
    s.targetOf o k offset = s.clock.targetOfTick (plus (o.passOrigin k) offset) := by
  rw [State.targetOf, h]
  simp only [hr, if_true]

theorem State.reachable_of_no_target (h : s.targetOf o k offset = none) : s.reachable o k offset = none := by
  rw [State.reachable, h]

theorem State.reachable_far {t : StageTime} (h : s.targetOf o k offset = some t)
    (hfar : later t (plus s.now (s.settings.horizon * 1000)) = true) : s.reachable o k offset = none := by
  rw [State.reachable, h]
  exact if_pos hfar

theorem State.reachable_near {t : StageTime} (h : s.targetOf o k offset = some t)
    (hnear : later t (plus s.now (s.settings.horizon * 1000)) = false) : s.reachable o k offset = some t := by
  rw [State.reachable, h]
  exact if_neg (by simp [hnear])

end targetOf

/-! ### A timed cell (R64, R67) -/

theorem State.readOne_timed {s : State} {p : Port} {o : OpenRec} {cell : Cell} {offset : Nat}
    (hcur : (s.port p).reader.current = some o) (ha : o.addr < 2048)
    (hcell : cell = decodeCell (readCell (s.port p).mem o.addr)) (hoff : cell.offset = some offset) :
    s.readOne p = s.readTimed p o cell offset := by
  simp only [State.readOne, hcur, ← hcell, if_neg (not_le.mpr ha)]
  cases cell with
  | stroke | hold | setLevel | setTempo | rest =>
    cases hoff
    rfl
  | endCell | head | link | undefined => cases hoff

theorem State.readTimed_waits {s : State} {p : Port} {o : OpenRec} {cell : Cell} {offset : Nat}
    (h : s.reachable o o.pass offset = none) : s.readTimed p o cell offset = .stop s := by
  rw [State.readTimed, h]

theorem State.readTimed_clipped {s : State} {p : Port} {o : OpenRec} {cell : Cell} {offset : Nat} {t : StageTime}
    (h : s.reachable o o.pass offset = some t) (hclip : o.length ≠ 0 ∧ o.length ≤ offset ∧ o.overhang = false) :
    s.readTimed p o cell offset = (((s.stepPast p o).referenced (cellRef p o cell.mark)).deliver (cellRef p o cell.mark)
      (OutcomeData.plain .clipped cell.chan)).unlessHeld p := by
  obtain ⟨hlen, hle, hover⟩ := hclip
  rw [State.readTimed, h]
  simp [hlen, hle, hover]

theorem State.readTimed_acts {s : State} {p : Port} {o : OpenRec} {cell : Cell} {offset : Nat} {t : StageTime}
    (h : s.reachable o o.pass offset = some t) (hin : o.length = 0 ∨ offset < o.length ∨ o.overhang = true) :
    s.readTimed p o cell offset = s.actOn p o cell t := by
  rw [State.readTimed, h]
  refine if_neg ?_
  rcases hin with hin | hin | hin
  · simp [hin]
  · simp [not_le.mpr hin]
  · simp [hin]

/-! ### Reading on (R70, R75) -/

theorem State.unlessHeld_more {s : State} {p : Port} (h : (s.port p).reader.isHeld = false) : s.unlessHeld p = .more s := by
  rw [State.unlessHeld, h, if_neg (by decide)]

theorem State.consumeArmed_full {s past t : State} {p : Port} {ref : OwnerRef} {a : Arm}
    (h : past.arm ref a = (.full, t)) : s.consumeArmed past p ref a = .stop s := by
  rw [State.consumeArmed, h]

theorem State.consumeArmed_of {s past t : State} {p : Port} {ref : OwnerRef} {a : Arm} {r : Armed}
    (h : past.arm ref a = (r, t)) (hr : r ≠ .full) : s.consumeArmed past p ref a = t.unlessHeld p := by
  rw [State.consumeArmed, h]
  cases r with
  | full => exact absurd rfl hr
  | queued | merged | given => rfl

/-- The state past a cell reads as the state before it, but in the ports. -/
theorem State.stepPast_armStrike (s : State) (p : Port) (o : OpenRec) (ref : OwnerRef) (level velocity : Nat) (accent : Bool)
    (c : ChanId) (target : Figures → StageTime) :
    (s.stepPast p o).armStrike ref level velocity accent c target = s.armStrike ref level velocity accent c target := rfl

theorem State.stepPast_armHold (s : State) (p : Port) (o : OpenRec) (ref : OwnerRef) (c : ChanId) (action : Action)
    (target : StageTime) : (s.stepPast p o).armHold ref c action target = s.armHold ref c action target := rfl

theorem State.stepPast_armEntry (s : State) (p : Port) (o : OpenRec) (ref : OwnerRef) (action : Action)
    (target fire ideal : StageTime) :
    (s.stepPast p o).armEntry ref action target fire ideal = s.armEntry ref action target fire ideal := rfl

/-- One more outcome to come does not change whether a port is HELD. -/
theorem State.modRecord_isHeld (s : State) (p : Port) (n : BitVec 8) (f : OpenRec → OpenRec) :
    ((s.modReader p (Reader.modRecord n f)).port p).reader.isHeld = (s.port p).reader.isHeld := by
  rw [State.modReader, State.modPort_port_same]
  rfl

/-- The state after a timeline change past a cell, and one more outcome to come: the reading goes on. -/
theorem State.unlessHeld_armed {s : State} {p : Port} {o : OpenRec} (h : (s.port p).reader.isHeld = false)
    (l : List Entry) (m : Bool) :
    (((s.stepPast p o).withTimeline l).referenced (cellRef p o m)).unlessHeld p =
      .more (((s.stepPast p o).withTimeline l).modReader p
        (Reader.modRecord o.serial fun x => { x with outstanding := x.outstanding + 1 })) := by
  refine State.unlessHeld_more ?_
  refine (State.modRecord_isHeld ..).trans ?_
  rw [State.withTimeline_port]
  exact (State.modRecord_isHeld ..).trans h

/-- A reference that a cell makes keeps the entry's IMMEDIATE flag as it is. -/
theorem Entry.joinedBy_cell (e : Entry) (p : Port) (o : OpenRec) (m : Bool) : e.joinedBy (cellRef p o m) =
    { e with owners := e.owners ++ [cellRef p o m], merged := true } := by
  simp [Entry.joinedBy, cellRef]

section consume
variable {s : State} {p : Port} {o : OpenRec} {m : Bool}

/-- An entry that no merge concerns: inserted, or left unread for want of room (R70, R101). -/
theorem State.consumeArmed_insert {e : Entry} (hheld : (s.port p).reader.isHeld = false)
    (hoffer : offerEntry e (cellRef p o m) (s.stepPast p o) = insertOffer e p (s.stepPast p o)) :
    (admits s.timeline p = true → s.consumeArmed (s.stepPast p o) p (cellRef p o m) (.offer e) =
      .more (((s.stepPast p o).withTimeline (placeEntry e s.timeline)).modReader p
        (Reader.modRecord o.serial fun x => { x with outstanding := x.outstanding + 1 }))) ∧
    (admits s.timeline p = false → s.consumeArmed (s.stepPast p o) p (cellRef p o m) (.offer e) = .stop s) :=
  ⟨fun hroom => (State.consumeArmed_of (State.arm_inserted hoffer hroom) nofun).trans (State.unlessHeld_armed hheld ..),
    fun hroom => State.consumeArmed_full (State.arm_full hoffer hroom)⟩

/-- A cell armed as an entry of its own kind, HOLD or MARK: LATE, or offered with the send time of the late check. -/
theorem State.armsCell_of {action : Action} {target ideal : StageTime} {c : Option ChanId}
    (hread : s.readOne p = s.consumeArmed (s.stepPast p o) p (cellRef p o m)
      (s.armEntry (cellRef p o m) action target target ideal))
    (hheld : (s.port p).reader.isHeld = false) (hchan : action.chan = c) (hveff : action.vEff = 0)
    (hnot : ∀ d fig, action ≠ .strike d fig) :
    s.ArmsCell p o (s.stepPast p o) ((s.stepPast p o).modReader p
      (Reader.modRecord o.serial fun x => { x with outstanding := x.outstanding + 1 })) (cellRef p o m) c action target
        ideal := by
  refine ⟨fun hnow hfar => ?_, fun send hsend => ?_⟩
  · rw [hread, State.armEntry_late (sendTime_of_far hnow hfar),
      State.consumeArmed_of (State.arm_given _) nofun, hveff, hchan]
    rfl
  · have hs : sendTime s.settings.tolerance s.now ideal = some send := by
      rcases hsend with ⟨hl, rfl⟩ | ⟨hl, hnear, rfl⟩
      · exact sendTime_of_later hl
      · exact sendTime_of_near hl hnear
    rw [hread, State.armEntry_offer hs]
    exact State.consumeArmed_insert hheld (offerEntry_of_no_partner fun d fig hd => (hnot d fig hd).elim)

/-- A stroke of a cell, in time, offered to the timeline: inserted, merged or absorbed (R68, R70, R103 to R105). -/
theorem State.armsStroke_of {c : ChanId} {fig : Figures} {target fire ideal send : StageTime}
    (hread : s.readOne p = s.consumeArmed (s.stepPast p o) p (cellRef p o m)
      (.offer (Entry.armed (cellRef p o m) (.strike c fig) target fire ideal send)))
    (hheld : (s.port p).reader.isHeld = false) :
    s.ArmsStroke p o (s.stepPast p o) ((s.stepPast p o).modReader p
      (Reader.modRecord o.serial fun x => { x with outstanding := x.outstanding + 1 })) (cellRef p o m) c fig target fire
        ideal send := by
  rw [State.ArmsStroke, hread]
  refine ⟨fun hfar => ?_, fun pre partner post f htl hp hnear hpre => ?_⟩
  · refine State.consumeArmed_insert hheld (offerEntry_of_no_partner ?_)
    rintro d fig' ⟨⟩ x hx f hxf
    exact hfar x hx f hxf
  · have hoffer := offerEntry_of_partner (s := s.stepPast p o) (ref := cellRef p o m)
      (e := Entry.armed (cellRef p o m) (.strike c fig) target fire ideal send) rfl htl hp hnear hpre
    have hpv : partner.action.vEff = f.vEff := by rw [hp]; rfl
    refine ⟨fun hroom hsoft => ?_, fun hroom hhard fire' ideal' hfire hideal => ?_, fun hfull => ?_⟩
    · rw [if_pos hroom, mergeInto_softer (hpv ▸ hsoft), Entry.joinedBy_cell] at hoffer
      exact (State.consumeArmed_of (State.arm_merged hoffer) nofun).trans (State.unlessHeld_armed hheld ..)
    · subst hfire hideal
      rw [if_pos hroom, mergeInto_harder (hpv ▸ hhard), Entry.joinedBy_cell] at hoffer
      exact (State.consumeArmed_of (State.arm_merged hoffer) nofun).trans (State.unlessHeld_armed hheld ..)
    · rw [if_neg (not_lt.mpr hfull)] at hoffer
      exact State.consumeArmed_of (State.arm_absorbed hoffer) nofun

end consume

/-! ### The tick of a cue (R69) -/

theorem State.cueTick_eq {s : State} {o : OpenRec} {offset : Nat} {target : StageTime} {tick : Tick}
    (hbeat : o.clock = .beat → tick = plus (plus o.origin (o.pass * o.length)) offset)
    (hfree : o.clock = .free → ∃ n : Nat, ((target - s.clock.tB).toInt ≤ 0 → n = 0) ∧
      (0 < (target - s.clock.tB).toInt →
        (target - s.clock.tB).toInt ≤ 500 * n ∧ 500 * (n : Int) < (target - s.clock.tB).toInt + 500) ∧
      tick = (s.clock.pos + BitVec.ofNat 64 (n * s.clock.rate.toNat)).extractLsb' 32 32) :
    s.cueTick o offset target = tick := by
  cases hc : o.clock with
  | beat =>
    rw [State.cueTick, hc, hbeat hc]
    rfl
  | free =>
    obtain ⟨n, hzero, hpos, rfl⟩ := hfree hc
    have hn : (((target - s.clock.tB).toInt + 499) / 500).toNat = n := by omega
    rw [State.cueTick, hc]
    simp only [hn]

/-- The cue that a SET_TEMPO cell files (R12, R69). -/
theorem State.offerCue_filed {past : State} {cue : TempoCue} (h : past.clock.cues.length < 4) (p : Port) (ref : OwnerRef) :
    past.offerCue p ref cue = .more ((past.modClock fun c =>
      { c with cues := placeAfter (fun x => atOrBefore x.tick cue.tick) cue c.cues }).referenced ref) := by
  rw [State.offerCue, Clock.fileCue, if_pos h]
  rfl

theorem State.offerCue_full {past : State} {cue : TempoCue} (h : 4 ≤ past.clock.cues.length) (p : Port) (ref : OwnerRef) :
    past.offerCue p ref cue =
      ((past.referenced ref).deliver ref (OutcomeData.plain .cueFull none)).unlessHeld p := by
  rw [State.offerCue, Clock.fileCue, if_neg (not_lt.mpr h)]

/-! ### What a cell comes to, by its kind (R68, R69) -/

theorem State.readOne_acts {s : State} {p : Port} {o : OpenRec} {cell : Cell} {offset : Nat} {target : StageTime}
    (hcur : (s.port p).reader.current = some o) (ha : o.addr < 2048)
    (hcell : cell = decodeCell (readCell (s.port p).mem o.addr)) (hoff : cell.offset = some offset)
    (htarget : s.targetOf o o.pass offset = some target)
    (hnear : later target (plus s.now (s.settings.horizon * 1000)) = false)
    (hin : o.length = 0 ∨ offset < o.length ∨ o.overhang = true) : s.readOne p = s.actOn p o cell target := by
  rw [State.readOne_timed hcur ha hcell hoff, State.readTimed_acts (State.reachable_near htarget hnear) hin]

theorem State.actOn_stroke {velocity : Nat} (hv : velocity ≠ 0) (s : State) (p : Port) (o : OpenRec) (c : ChanId)
    (mark accent : Bool) (offset : Nat) (target : StageTime) :
    s.actOn p o (.stroke c velocity mark accent offset) target =
      s.consumeArmed (s.stepPast p o) p (cellRef p o mark)
        (s.armStrike (cellRef p o mark) (s.port p).reader.level velocity accent c fun _ => target) :=
  if_neg hv

theorem State.actOn_hold (s : State) (p : Port) (o : OpenRec) (c : ChanId) (drop : Bool) (level : Nat) (mark : Bool)
    (offset : Nat) (target : StageTime) : s.actOn p o (.hold c drop level mark offset) target =
      s.consumeArmed (s.stepPast p o) p (cellRef p o mark) (s.armHold (cellRef p o mark) c (holdAction c drop level) target) :=
  rfl

theorem State.actOn_mark (s : State) (p : Port) (o : OpenRec) (offset : Nat) (target : StageTime) :
    s.actOn p o (.rest true offset) target =
      s.consumeArmed (s.stepPast p o) p (cellRef p o true) (s.armEntry (cellRef p o true) .mark target target target) :=
  rfl

theorem velocity_ne_zero {velocity level boost v : Nat} {accent : Bool}
    (h : effectiveVelocity velocity level accent boost = some v) : velocity ≠ 0 := by
  rintro rfl
  rw [effectiveVelocity_muted (by omega)] at h
  cases h

theorem holdAction_cell (c : ChanId) (drop : Bool) (level : Nat) :
    holdAction c drop level = if drop then .drop c else .lift c (max 1 level) := by
  cases drop with
  | true => rfl
  | false =>
    have hlevel : (if level = 0 then 1 else level) = max 1 level := by split <;> omega
    exact congrArg (Action.lift c) hlevel

/-- A stroke cell on a READY channel, in time, is offered with the figures of its velocity (R68, R86, R87). -/
theorem State.armStrike_cell {s : State} {ref : OwnerRef} {level velocity v : Nat} {accent : Bool} {c : ChanId}
    {target fire ideal send : StageTime} {fig : Figures}
    (hveff : effectiveVelocity velocity level accent s.settings.accentBoost = some v)
    (hready : s.channelCheck c .strike = none) (hfig : fig = figuresOf (s.chan c) v)
    (hfire : fire = minus target (fig.flight * 10)) (hideal : ideal = minus fire s.settings.frameTime)
    (hsend : later ideal s.now = true ∧ send = ideal ∨
      later ideal s.now = false ∧ since ideal s.now ≤ s.settings.tolerance ∧ send = s.now) :
    s.armStrike ref level velocity accent c (fun _ => target) =
      .offer (Entry.armed ref (.strike c fig) target fire ideal send) := by
  subst hfig hfire hideal
  rw [State.armStrike_ready hveff hready]
  refine State.armEntry_offer ?_
  rcases hsend with ⟨hl, rfl⟩ | ⟨hl, hnear, rfl⟩
  · exact sendTime_of_later hl
  · exact sendTime_of_near hl hnear

theorem Reader.modRecord_modRecord (rd : Reader) (n : BitVec 8) {f g : OpenRec → OpenRec}
    (hf : ∀ o, (f o).serial = o.serial) : (rd.modRecord n f).modRecord n g = rd.modRecord n fun o => g (f o) := by
  simp only [Reader.modRecord, List.map_map]
  refine congrArg (fun l => { rd with opened := l }) (List.map_congr_left fun o _ => ?_)
  by_cases h : o.serial = n
  · simp [h, hf]
  · simp [h]

/-- The reader after a cell that armed an entry: one cell on, and one more outcome to come. -/
theorem State.armed_reader (s : State) (p : Port) (o : OpenRec) (l : List Entry) :
    ((((s.stepPast p o).withTimeline l).modReader p
      (Reader.modRecord o.serial fun x => { x with outstanding := x.outstanding + 1 })).port p).reader =
    { (s.port p).reader with opened := (s.port p).reader.opened.map fun x =>
      if x.serial = o.serial then { x with addr := x.addr + 1, links := 0, outstanding := x.outstanding + 1 } else x } := by
  rw [State.modReader, State.modPort_port_same, State.withTimeline_port, State.stepPast, State.modReader,
    State.modPort_port_same]
  exact Reader.modRecord_modRecord _ _ fun _ => rfl

/-- Settles O30: the target, the horizon, the clipping, and then the arming of the cell's kind. -/
theorem strokeCellsAreArmed : Obligations.StrokeCellsAreArmed := by
  refine ⟨fun p o c velocity mark accent offset v target ideal s hcur ha hclock hcell hin htarget hnear hveff hready hideal
    hlater hfar hroom hheld => ?_, fun p o cell offset target past noted ref s hcur ha hheld hcell hoff hpast hnoted href => ?_,
    fun o k offset q s hq => ?_⟩
  · have hsome : s.targetOf o o.pass offset = some target := htarget ▸ State.targetOf_free hclock
    have hread := State.readOne_acts hcur ha hcell.symm rfl hsome hnear hin
    rw [State.actOn_stroke (velocity_ne_zero hveff),
      State.armStrike_cell hveff hready rfl rfl hideal (.inl ⟨hlater, rfl⟩)] at hread
    have harm := ((State.armsStroke_of hread hheld).1 hfar).1 hroom
    exact ⟨_, harm, rfl, State.armed_reader .., rfl⟩
  · have hpast' : past = s.stepPast p o := hpast
    subst hpast' hnoted href
    have hread := State.readOne_timed hcur ha hcell hoff
    refine ⟨fun hnone => ?_, fun hsome hfar => ?_, fun hsome hnear => ⟨fun hclip => ?_, fun hin => ?_⟩⟩
    · rw [hread, State.readTimed_waits (State.reachable_of_no_target hnone)]
    · rw [hread, State.readTimed_waits (State.reachable_far hsome hfar)]
    · rw [hread, State.readTimed_clipped (State.reachable_near hsome hnear) hclip]
      rfl
    · have hact := State.readOne_acts hcur ha hcell hoff hsome hnear hin
      clear hread
      refine ⟨?_, ?_, ?_, ?_, ?_, ?_, ?_, ?_⟩
      · rintro c mark accent rfl
        exact hact
      · rintro rfl
        exact hact
      · rintro level rfl
        exact hact
      · rintro c velocity mark accent rfl hv
        rw [State.actOn_stroke hv] at hact
        refine ⟨fun hmuted => ?_, fun v hveff => ⟨fun code hcode => ?_, fun ideal hready hideal hnow hlate => ?_⟩⟩
        · rw [hact, State.armStrike_muted hmuted]
          exact State.consumeArmed_of (State.arm_given _) nofun
        · rw [hact, State.armStrike_unready hveff hcode]
          exact State.consumeArmed_of (State.arm_given _) nofun
        · subst hideal
          rw [hact, State.armStrike_ready hveff hready, State.armEntry_late (sendTime_of_far hnow hlate)]
          exact State.consumeArmed_of (State.arm_given _) nofun
      · rintro c velocity mark accent v fig fire ideal send rfl hv hveff hready hfig hfire hideal hsend
        rw [State.actOn_stroke hv, State.armStrike_cell hveff hready hfig hfire hideal hsend] at hact
        exact State.armsStroke_of hact hheld
      · rintro c drop level mark rfl
        rw [State.actOn_hold] at hact
        refine ⟨fun code hcode => ?_, fun hready => ?_⟩
        · rw [hact, State.armHold_unready hcode]
          exact State.consumeArmed_of (State.arm_given _) nofun
        · rw [State.armHold_ready hready, holdAction_cell] at hact
          refine State.armsCell_of hact hheld ?_ ?_ ?_
          · cases drop <;> rfl
          · cases drop <;> rfl
          · cases drop <;> exact fun _ _ => Action.noConfusion
      · rintro rfl
        rw [State.actOn_mark] at hact
        exact State.armsCell_of hact hheld rfl rfl fun _ _ => Action.noConfusion
      · rintro tempo duration tick rfl hbeat hfree
        have hcue : s.readOne p = (s.stepPast p o).offerCue p (cellRef p o false)
            { tick := tick, tempo := max 1000 (min 30000 tempo), duration := 50 * duration, owner := cellRef p o false } := by
          have htempo : clampNat 1000 30000 tempo = max 1000 (min 30000 tempo) := by
            rw [clampNat_eq_min_max (by decide)]
            omega
          rw [hact, ← State.cueTick_eq hbeat hfree, ← htempo, Nat.mul_comm 50]
          rfl
        refine ⟨fun hroom => ?_, fun hfull => ?_⟩
        · exact hcue.trans (State.offerCue_filed (past := s.stepPast p o) hroom p _)
        · exact hcue.trans (State.offerCue_full (past := s.stepPast p o) hfull p _)
  · subst hq
    refine ⟨State.targetOf_free, State.targetOf_stopped, fun hc hr => ⟨fun hfar => ?_, fun d hd => ?_⟩⟩
    · rw [State.targetOf_running hc hr]
      exact Clock.targetOfTick_none (tickDistance_far hfar)
    · rw [State.targetOf_running hc hr]
      exact Clock.targetOfTick_some (tickDistance_near hd)

end Sys2Proof.Machine
end

section
/-! PROOFS. Reader passes: aging, takes, the cells that are not timed, and the run of a pass (R55, R59 to R62, R65,
R66). -/

namespace Sys2Proof.Machine

/-- A change of a port is known by what it makes of the port's record. -/
theorem State.modPort_congr {s : State} {p : Port} {f g : PortRec → PortRec} (h : f (s.port p) = g (s.port p)) :
    s.modPort p f = s.modPort p g :=
  congrArg (fun r => { s with ports := s.ports.set p.val r p.isLt }) h

/-! ### Settling (R55) -/

theorem Reader.settledState_eq (rd : Reader) : rd.settledState =
    if rd.current ≠ none ∨ rd.queue ≠ [] then .playing else if rd.opened ≠ [] then .draining else .idle := by
  simp [Reader.settledState, Option.isSome_iff_ne_none]

theorem PortRec.settle_held {r : PortRec} (h : r.reader.isHeld = true) (now : StageTime) : r.settle now = r := if_pos h

theorem PortRec.settle_not_held {r : PortRec} (h : r.reader.isHeld = false) (now : StageTime) :
    r.settle now = r.settleNow now := if_neg (by simp [h])

theorem PortRec.settleNow_eq (now : StageTime) (r : PortRec) : r.settleNow now = { r with
    reader := { r.reader with state := r.reader.settledState },
    unit := if r.reader.settledState = .idle ∧ r.reader.state ≠ .idle then r.unit.raise now .portIdle else r.unit } := by
  unfold PortRec.settleNow
  by_cases h : r.reader.settledState = .idle ∧ r.reader.state ≠ .idle
  · obtain ⟨hset, hstate⟩ := h
    simp [hset, hstate, PortRec.modUnit]
  · rw [if_neg h, if_neg (by simpa using h)]

/-! ### Aging (R61) -/

theorem Reader.age_queue_get {rd : Reader} {i : Nat} {q : QueueSlot} (h : rd.queue[i]? = some q) (now : StageTime)
    (tick : Tick) :
    (∀ t, q.origin = .atTime t → atOrBefore t now = true →
      (rd.age now tick).queue[i]? = some { q with originPassed := true }) ∧
    ((∀ t, q.origin = .atTime t → atOrBefore t now = false) → (rd.age now tick).queue[i]? = some q) := by
  simp only [Reader.age, List.getElem?_map, h, Option.map_some]
  refine ⟨fun t ht hpast => ?_, fun hahead => ?_⟩
  · rw [ht]
    exact congrArg some (if_pos hpast)
  · split
    · rename_i t ht
      rw [hahead t ht, if_neg (by decide)]
    · rfl

theorem Reader.age_chainEnd {rd : Reader} {e : ChainEnd} (h : rd.chainEnd = some e) (now : StageTime) (tick : Tick) :
    (e.clock = .free → (rd.age now tick).chainEnd = if earlier e.pos now then none else some e) ∧
      (e.clock = .beat → (rd.age now tick).chainEnd = if earlier e.pos tick then none else some e) := by
  refine ⟨fun hc => ?_, fun hc => ?_⟩
  · simp [Reader.age, h, hc]
  · simp [Reader.age, h, hc]

/-! ### Takes (R59, R60) -/

theorem beatLine_lt {x n : Nat} (h : x + 384 * (n + 1) < 4294967296) : x - x % 384 + 384 < 4294967296 :=
  (Nat.add_le_add_right (Nat.sub_le ..) 384).trans_lt ((Nat.add_le_add_left (by rw [Nat.mul_add]; exact Nat.le_add_left ..) x).trans_lt h)

theorem nextBeatTick_toNat {t : Tick} (h : t.toNat - t.toNat % 384 + 384 < 4294967296) :
    (nextBeatTick t).toNat = t.toNat - t.toNat % 384 + 384 := by
  rw [nextBeatTick, if_pos h]
  exact Nat.mod_eq_of_lt h

/-- From a beat line on, the tick positions of the next beats follow every 384 ticks. -/
theorem beatTickAfter_aligned {t : Tick} {n : Nat} (h : t.toNat % 384 = 0) (hlt : t.toNat + 384 * n < 4294967296) :
    (beatTickAfter t n).toNat = t.toNat + 384 * n := by
  induction n generalizing t with
  | zero => rfl
  | succ n ih =>
    have hnext := nextBeatTick_toNat (t := t) (beatLine_lt hlt)
    rw [beatTickAfter, ih (by omega) (by omega), hnext]
    omega

theorem beatTickAfter_toNat {t : Tick} {n : Nat} (hn : 0 < n) (hlt : t.toNat + 384 * n < 4294967296) :
    (beatTickAfter t n).toNat = t.toNat - t.toNat % 384 + 384 * n := by
  obtain ⟨n, rfl⟩ := Nat.exists_eq_succ_of_ne_zero hn.ne'
  have hnext := nextBeatTick_toNat (t := t) (beatLine_lt hlt)
  rw [beatTickAfter, beatTickAfter_aligned (by omega) (by omega), hnext]
  omega

/-- The origin of a take, mode by mode (R59). -/
theorem State.fixOrigin_eq {s : State} {chainEnd : Option ChainEnd} {q : QueueSlot} {origin : BitVec 32}
    (htick : ∀ t, q.origin = .atTick t → origin = t)
    (hbar : q.origin = .nextBar → s.clock.tick.toNat + 384 * (s.clock.meter - s.clock.beat) < 2 ^ 32 ∧
      s.clock.beat < s.clock.meter ∧
      origin.toNat = s.clock.tick.toNat - s.clock.tick.toNat % 384 + 384 * (s.clock.meter - s.clock.beat))
    (htime : ∀ t, q.origin = .atTime t → origin = if q.originPassed then s.now else t)
    (hplus : ∀ n, q.origin = .nowPlus n → origin = plus s.now n)
    (hafter : q.origin = .after → (∀ e, chainEnd = some e → origin = e.pos) ∧
      (chainEnd = none → origin = if q.head.clock = .beat then s.clock.tick else s.now)) :
    s.fixOrigin chainEnd q = origin := by
  unfold State.fixOrigin
  split
  · rename_i t ht
    exact (htick t ht).symm
  · rename_i ho
    obtain ⟨hlt, hbeat, horigin⟩ := hbar ho
    exact BitVec.eq_of_toNat_eq (by rw [beatTickAfter_toNat (by omega) hlt, horigin])
  · rename_i t ht
    exact (htime t ht).symm
  · rename_i n hn
    exact (hplus n hn).symm
  · rename_i ho
    obtain ⟨hsome, hnone⟩ := hafter ho
    split
    · rename_i e
      exact (hsome e rfl).symm
    · exact (hnone rfl).symm

theorem State.takePhrase_none {s : State} {p : Port} (h : s.safeLow = true ∨ (s.port p).reader.isHeld = true ∨
    (s.port p).reader.current ≠ none ∨ 8 ≤ (s.port p).reader.opened.length ∨ (s.port p).reader.queue = []) :
    s.takePhrase p = none := by
  unfold State.takePhrase
  simp only
  split
  · rfl
  · rename_i hfree
    simp only [Bool.or_eq_true, decide_eq_true_eq, not_or, Option.isSome_iff_ne_none] at hfree
    obtain ⟨⟨⟨hheld, hsafe⟩, hcur⟩, hroom⟩ := hfree
    rcases h with h | h | h | h | h
    · exact absurd h hsafe
    · exact absurd h hheld
    · exact absurd h hcur
    · exact absurd h hroom
    · rw [h]

/-- A port that takes a phrase plays: the record it opens is READING. -/
theorem Reader.settledState_of_reading {rd : Reader} {o : OpenRec} (h : o ∈ rd.opened) (hr : o.reading = .reading) :
    rd.settledState = .playing := by
  have hcur : rd.current.isSome = true := by
    rw [Reader.current, List.find?_isSome]
    exact ⟨o, h, by simp [hr]⟩
  rw [Reader.settledState, hcur]
  rfl

/-- A port that takes the head of its queue (R60). -/
def PortRec.taken (now : StageTime) (origin : BitVec 32) (q : QueueSlot) (rest : List QueueSlot) (r : PortRec) : PortRec :=
  { r with
    reader := { r.reader with state := .playing, queue := rest, opened := r.reader.opened ++ [q.open origin] },
    unit := if rest = [] then r.unit.raise now .queueEmpty else r.unit }

theorem PortRec.taken_eq {r : PortRec} (hheld : r.reader.isHeld = false) (now : StageTime) (origin : BitVec 32)
    (q : QueueSlot) (rest : List QueueSlot) :
    (if rest.isEmpty then (r.modReader fun rd => { rd with queue := rest, opened := rd.opened ++ [q.open origin] }).modUnit
        (NoticeUnit.raise now .queueEmpty)
      else r.modReader fun rd => { rd with queue := rest, opened := rd.opened ++ [q.open origin] }).settle now =
      r.taken now origin q rest := by
  have hplay : ∀ r' : PortRec, q.open origin ∈ r'.reader.opened → r'.reader.isHeld = false →
      r'.settle now = { r' with reader := { r'.reader with state := .playing } } := fun r' hmem hh => by
    rw [PortRec.settle_not_held hh, PortRec.settleNow_eq, Reader.settledState_of_reading hmem rfl,
      if_neg fun hc => PortState.noConfusion hc.1]
  cases rest with
  | nil => exact hplay _ (by simp [PortRec.modReader, PortRec.modUnit]) hheld
  | cons x xs => exact hplay _ (by simp [PortRec.modReader]) hheld

theorem State.takePhrase_some {s : State} {p : Port} {q : QueueSlot} {rest : List QueueSlot} (hsafe : s.safeLow = false)
    (hheld : (s.port p).reader.isHeld = false) (hcur : (s.port p).reader.current = none)
    (hroom : (s.port p).reader.opened.length < 8) (hq : (s.port p).reader.queue = q :: rest) :
    s.takePhrase p = some (s.modPort p
      (PortRec.taken s.now (s.fixOrigin (s.port p).reader.chainEnd q) q rest)) := by
  unfold State.takePhrase
  simp only [hheld, hsafe, hcur, hq, Option.isSome_none, Bool.or_false, Bool.false_or]
  rw [if_neg (by simpa using hroom)]
  refine congrArg some (State.modPort_congr ?_)
  exact PortRec.taken_eq hheld ..

/-! ### Cells that are not timed (R62, R65, R66) -/

theorem State.programError_eq {s : State} {p : Port} (h : (s.port p).reader.isHeld = false) (error : ProgramError) :
    s.programError p error = s.modPort p fun r =>
      { r with reader := { r.reader with state := .held (.program error) }, unit := r.unit.raise s.now .held } :=
  State.modPort_congr (if_neg (by simp [h]))

section readOne
variable {s : State} {p : Port} {o : OpenRec} (hcur : (s.port p).reader.current = some o)
include hcur

theorem State.readOne_addressEnd (h : 2048 ≤ o.addr) : s.readOne p = .stop (s.programError p .addressEnd) := by
  simp only [State.readOne, hcur, if_pos h]

theorem State.readOne_undefined (ha : o.addr < 2048) (hcell : decodeCell (readCell (s.port p).mem o.addr) = .undefined) :
    s.readOne p = .stop (s.programError p .badKind) := by
  simp only [State.readOne, hcur, if_neg (not_le.mpr ha), hcell]

theorem State.readOne_link (ha : o.addr < 2048) {target : Nat}
    (hcell : decodeCell (readCell (s.port p).mem o.addr) = .link target) : s.readOne p = s.readLink p o target := by
  simp only [State.readOne, hcur, if_neg (not_le.mpr ha), hcell]

theorem State.readOne_passEnd (ha : o.addr < 2048) (hcell : decodeCell (readCell (s.port p).mem o.addr) = .endCell ∨
    ∃ h, decodeCell (readCell (s.port p).mem o.addr) = .head h) : s.readOne p = s.readPassEnd p o := by
  rcases hcell with hcell | ⟨h, hcell⟩
  · simp only [State.readOne, hcur, if_neg (not_le.mpr ha), hcell]
  · simp only [State.readOne, hcur, if_neg (not_le.mpr ha), hcell]

end readOne

theorem State.readPassEnd_waits {s : State} {p : Port} {o : OpenRec} (hleft : o.passesLeft ≠ 0)
    (h : s.reachable o (o.pass + 1) 0 = none) : s.readPassEnd p o = .stop s := by
  rw [State.readPassEnd, if_neg hleft, h]

theorem State.readPassEnd_next {s : State} {p : Port} {o : OpenRec} {t : StageTime} (hleft : o.passesLeft ≠ 0)
    (h : s.reachable o (o.pass + 1) 0 = some t) : s.readPassEnd p o = .more (s.modReader p (Reader.modRecord o.serial
      fun x => { x with passesLeft := x.passesLeft - 1, pass := x.pass + 1, addr := x.start + 1, links := 0 })) := by
  rw [State.readPassEnd, if_neg hleft, h]

/-! ### The run of a pass (R62, log 6) -/

/-- Reading on comes to a state exactly when the cells up to it fit the bound. -/
theorem State.readOn_eq_some {fuel : Nat} {p : Port} {s t : State} :
    State.readOn fuel p s = some t ↔ ∃ n, n < fuel ∧ State.ReadsTo p n s t := by
  induction fuel generalizing s with
  | zero => simp [State.readOn]
  | succ fuel ih =>
    rw [State.readOn]
    cases hone : s.readOne p with
    | stop s' =>
      constructor
      · rintro ⟨⟩
        exact ⟨0, Nat.succ_pos _, hone⟩
      · rintro ⟨n, -, hreads⟩
        cases n with
        | zero =>
          have hsame : Read.stop s' = .stop t := hone.symm.trans hreads
          cases hsame
          rfl
        | succ n =>
          obtain ⟨m, hm, -⟩ := hreads
          cases hone.symm.trans hm
    | more s' =>
      simp only [ih]
      constructor
      · rintro ⟨n, hn, hreads⟩
        exact ⟨n + 1, Nat.succ_lt_succ hn, s', hone, hreads⟩
      · rintro ⟨n, hn, hreads⟩
        cases n with
        | zero => cases hone.symm.trans hreads
        | succ n =>
          obtain ⟨m, hm, hrest⟩ := hreads
          cases hone.symm.trans hm
          exact ⟨n, Nat.lt_of_succ_lt_succ hn, hrest⟩

theorem passFuel_eq : passFuel = 2 ^ 32 := rfl

/-- The state at the start of a pass at its time (R61, R62). -/
theorem State.beginPass_eq {s : State} {p : Port} (h : (s.port p).nextPass = s.now) : s.beginPass p =
    s.modPort p fun r => { r with reader := r.reader.age s.now s.clock.tick, nextPass := s.now + 500 } := by
  refine State.modPort_congr ?_
  rw [h, if_pos (atOrBefore_self _)]
  rfl

theorem State.modPort_port_isHeld {s : State} {p : Port} (f : PortRec → PortRec)
    (h : (f (s.port p)).reader.state = (s.port p).reader.state) :
    ((s.modPort p f).port p).reader.isHeld = (s.port p).reader.isHeld := by
  rw [State.modPort_port_same, Reader.isHeld, h, Reader.isHeld]

theorem exec_readerPass_some {s t : State} {p : Port} (hr : s.resetLow = false) (h : s.readerPass p = some t) :
    exec (.readerPass p) s = .next t := by
  rw [show exec (.readerPass p) s = execReaderPass p s from rfl, execReaderPass, hr, if_neg (by decide), h]

theorem exec_readerPass_none {s : State} {p : Port} (hr : s.resetLow = false) (h : s.readerPass p = none) :
    exec (.readerPass p) s = .fault .endlessPass := by
  rw [show exec (.readerPass p) s = execReaderPass p s from rfl, execReaderPass, hr, if_neg (by decide), h]

section pass
variable {s s1 s2 : State} {p : Port}
  (h1 : s.beginPass p = s1) (h2 : (s1.takePhrase p).getD s1 = s2)
include h1

theorem State.readerPass_idle (h : s1.safeLow = true ∨ (s1.port p).reader.isHeld = true) : s.readerPass p = some s1 := by
  simp only [State.readerPass, h1]
  exact if_pos (by simpa using h)

include h2

theorem State.readerPass_reads (hsafe : s1.safeLow = false) (hheld : (s1.port p).reader.isHeld = false) {t : State}
    (h : State.readOn passFuel p s2 = some t) : s.readerPass p = some (t.modPort p (PortRec.settle t.now)) := by
  simp only [State.readerPass, h1, h2, hsafe, hheld, h]
  rfl

theorem State.readerPass_endless (hsafe : s1.safeLow = false) (hheld : (s1.port p).reader.isHeld = false)
    (h : State.readOn passFuel p s2 = none) : s.readerPass p = none := by
  simp only [State.readerPass, h1, h2, hsafe, hheld, h]
  rfl

end pass

/-! ### A phrase of one record that ends (R65, R71) -/

theorem Reader.record_singleton {rd : Reader} {o : OpenRec} (h : rd.opened = [o]) : rd.record o.serial = some o := by
  simp [Reader.record, h]

theorem PortRec.finishIfDone_done {r : PortRec} {n : BitVec 8} {o : OpenRec} (h : r.reader.record n = some o)
    (hleft : o.reading ≠ .reading) (hout : o.outstanding = 0) (now : StageTime) : r.finishIfDone now n =
      ((r.modUnit (NoticeUnit.raise now .phraseDone)).modReader fun rd =>
        { rd with opened := rd.opened.filter fun x => x.serial != n }).settle now := by
  rw [PortRec.finishIfDone, h]
  exact if_pos (by simp [hleft, hout])

theorem PortRec.finishIfDone_outstanding {r : PortRec} {n : BitVec 8} {o : OpenRec} (h : r.reader.record n = some o)
    (hout : o.outstanding ≠ 0) (now : StageTime) : r.finishIfDone now n = r := by
  rw [PortRec.finishIfDone, h]
  exact if_neg (by simp [hout])

/-- The reader of a settled port with nothing queued or open that was not HELD. -/
theorem PortRec.settle_empty {r : PortRec} (hheld : r.reader.isHeld = false) (hq : r.reader.queue = [])
    (ho : r.reader.opened = []) (now : StageTime) : (r.settle now).reader = { r.reader with state := .idle } := by
  rw [PortRec.settle_reader, hheld, if_neg (by decide)]
  simp [Reader.settledState, Reader.current, hq, ho]

/-- A port whose only phrase has ended and left the open list, before it settles (R65, R71). -/
def PortRec.endedAlone (now : StageTime) (o : OpenRec) (r : PortRec) : PortRec :=
  (((r.modReader fun rd => { rd.modRecord o.serial fun x => { x with reading := .ended } with
      chainEnd := if o.length = 0 then none
        else some { clock := o.clock, pos := plus (o.passOrigin o.pass) o.length } }).modUnit
    (NoticeUnit.raise now .readEnd)).modUnit (NoticeUnit.raise now .phraseDone)).modReader fun rd =>
      { rd with opened := rd.opened.filter fun x => x.serial != o.serial }

/-- The end of reading of a port's only phrase, nothing of it outstanding: the open list empties and the port is IDLE. -/
theorem State.endReading_alone {s : State} {p : Port} {o : OpenRec} (hheld : (s.port p).reader.isHeld = false)
    (hq : (s.port p).reader.queue = []) (ho : (s.port p).reader.opened = [o]) (hout : o.outstanding = 0) :
    ((s.endReading p o).port p).reader = { (s.port p).reader with
      opened := [], state := .idle,
      chainEnd := if o.length = 0 then none else some ⟨o.clock, plus o.origin (o.pass * o.length + o.length)⟩ } := by
  rw [State.endReading, State.modPort_port_same, PortRec.finishIfDone_done (o := { o with reading := .ended })
    (Reader.record_singleton (o := { o with reading := .ended })
      (by simp [PortRec.modUnit, PortRec.modReader, Reader.modRecord, ho])) nofun hout]
  have hdone := PortRec.settle_empty (now := s.now) (r := PortRec.endedAlone s.now o (s.port p)) hheld hq
    (by simp [PortRec.endedAlone, PortRec.modUnit, PortRec.modReader, Reader.modRecord, ho])
  have hopened : (PortRec.endedAlone s.now o (s.port p)).reader.opened = [] := by
    simp [PortRec.endedAlone, PortRec.modUnit, PortRec.modReader, Reader.modRecord, ho]
  refine (PortRec.settle_empty (r := (PortRec.endedAlone s.now o (s.port p)).settle s.now) ?_ ?_ ?_ s.now).trans ?_
  · rw [hdone]
    rfl
  · rw [hdone]
    exact hq
  · rw [hdone]
    exact hopened
  · rw [hdone, ← hopened, ← plus_plus]
    rfl

theorem readCell_end {m : List Host.Cell} {a : Nat} (h : (readByte m (8 * a)).toNat % 16 = 0) :
    decodeCell (readCell m a) = .endCell := decodeCell_end h

/-- A pass over a phrase that ends at once, alone on its port. -/
theorem State.readOne_ends {s : State} {p : Port} {o : OpenRec} (hheld : (s.port p).reader.isHeld = false)
    (hq : (s.port p).reader.queue = []) (ho : (s.port p).reader.opened = [o]) (hread : o.reading = .reading)
    (ha : o.addr < 2048) (hleft : o.passesLeft = 0) (hout : o.outstanding = 0)
    (hbyte : (readByte (s.port p).mem (8 * o.addr)).toNat % 16 = 0) : s.readOne p = .stop (s.endReading p o) := by
  have hcur : (s.port p).reader.current = some o := by simp [Reader.current, ho, hread]
  have hnone : (s.endReading p o).takePhrase p = none :=
    State.takePhrase_none (by rw [State.endReading_alone hheld hq ho hout]; simp [hq])
  rw [State.readOne_passEnd hcur ha (.inl (readCell_end hbyte)), State.readPassEnd, if_pos hleft]
  simp only [hnone]

/-- Settles O32: the pass by what it may do, and the steps of reading one by one. -/
theorem readerPassesAgeAndEndPhrases : Obligations.ReaderPassesAgeAndEndPhrases := by
  refine ⟨fun p s hr hnext => ⟨fun h => ?_, fun o hsafe hheld hq ho hread ha hleft hout hbyte => ?_,
    fun s1 s2 hsafe hheld h1 h2 => ?_⟩, fun now tick rd => ⟨rfl, List.length_map _, fun i q h => Reader.age_queue_get h now tick,
    fun h => ?_, fun e h => Reader.age_chainEnd h now tick⟩, fun p q rest origin s => ⟨State.takePhrase_none, ?_⟩,
    fun p o cell held s hcur hheld hcell hheldState => ⟨fun ha => ?_, fun ha hc => ?_, fun target ha hc => ⟨fun hl => ?_, fun hl => ?_⟩,
      fun ha hc hleft => ⟨fun hnone => ?_, fun target hsome => ⟨fun hfar => ?_, fun hnear => ?_⟩⟩⟩,
    fun now r next hnext => ⟨fun h => PortRec.settle_held h now, fun h => ?_⟩⟩
  · have h1 := State.beginPass_eq hnext
    refine exec_readerPass_some hr (State.readerPass_idle h1 ?_)
    rwa [State.modPort_port_isHeld _ rfl]
  · have h1 := State.beginPass_eq hnext
    generalize hs1 : (s.modPort p fun r =>
      { r with reader := r.reader.age s.now s.clock.tick, nextPass := s.now + 500 }) = s1 at h1
    have hport : s1.port p = { s.port p with
        reader := (s.port p).reader.age s.now s.clock.tick, nextPass := s.now + 500 } := by
      rw [← hs1, State.modPort_port_same]
    have hheld1 : (s1.port p).reader.isHeld = false := by rw [hport]; exact hheld
    have hq1 : (s1.port p).reader.queue = [] := by rw [hport]; simp [Reader.age, hq]
    have ho1 : (s1.port p).reader.opened = [o] := by rw [hport]; exact ho
    have hmem : (s1.port p).mem = (s.port p).mem := by rw [hport]
    have hcur : (s1.port p).reader.current ≠ none := by simp [Reader.current, ho1, hread]
    have htake : (s1.takePhrase p).getD s1 = s1 := by
      rw [State.takePhrase_none (.inr (.inr (.inl hcur)))]
      rfl
    have hstop := State.readOne_ends hheld1 hq1 ho1 hread ha hleft hout (hmem.symm ▸ hbyte)
    have hreads := State.readOn_eq_some (fuel := passFuel).mpr ⟨0, by decide, hstop⟩
    have hend := State.endReading_alone hheld1 hq1 ho1 hout
    refine ⟨_, exec_readerPass_some hr (State.readerPass_reads h1 htake (by rw [← hs1]; exact hsafe) hheld1 hreads), ?_⟩
    have hsettled := PortRec.settle_empty (r := (s1.endReading p o).port p) (now := s1.now)
      (by rw [hend]; rfl) (by rw [hend]; exact hq1) (by rw [hend])
    rw [State.modPort_port_same]
    refine ⟨?_, ?_, ?_, ?_⟩
    · exact (congrArg Reader.opened hsettled).trans (congrArg Reader.opened hend)
    · exact congrArg Reader.state hsettled
    · exact (congrArg Reader.chainEnd hsettled).trans (congrArg Reader.chainEnd hend)
    · rw [← hs1]
      rfl
  · have hb : s.beginPass p = s1 := (State.beginPass_eq hnext).trans h1.symm
    have hsafe1 : s1.safeLow = false := by rw [h1]; exact hsafe
    have hheld1 : (s1.port p).reader.isHeld = false := by
      rw [h1, State.modPort_port_isHeld _ rfl]
      exact hheld
    refine ⟨fun n t hn hreads => ?_, fun hnever => ?_⟩
    · exact exec_readerPass_some hr (State.readerPass_reads hb h2.symm hsafe1 hheld1
        (State.readOn_eq_some.mpr ⟨n, hn, hreads⟩))
    · refine exec_readerPass_none hr (State.readerPass_endless hb h2.symm hsafe1 hheld1 ?_)
      rw [Option.eq_none_iff_forall_ne_some]
      intro t ht
      obtain ⟨n, hn, hreads⟩ := State.readOn_eq_some.mp ht
      exact hnever n t hn hreads
  · simp [Reader.age, h]
  · intro hsafe hheld hcur hroom hq htick hbar htime hplus hafter
    rw [State.takePhrase_some hsafe hheld hcur hroom hq, State.fixOrigin_eq htick hbar htime hplus hafter]
    rfl
  · rw [State.readOne_addressEnd hcur ha, State.programError_eq hheld, hheldState]
  · rw [State.readOne_undefined hcur ha (hcell ▸ hc), State.programError_eq hheld, hheldState]
  · rw [State.readOne_link hcur ha (hcell ▸ hc), State.readLink, if_pos hl]
  · rw [State.readOne_link hcur ha (hcell ▸ hc), State.readLink, if_neg (not_lt.mpr hl), State.programError_eq hheld,
      hheldState]
  · rw [State.readOne_passEnd hcur ha (hcell ▸ hc), State.readPassEnd_waits hleft (State.reachable_of_no_target hnone)]
  · rw [State.readOne_passEnd hcur ha (hcell ▸ hc), State.readPassEnd_waits hleft (State.reachable_far hsome hfar)]
  · rw [State.readOne_passEnd hcur ha (hcell ▸ hc), State.readPassEnd_next hleft (State.reachable_near hsome hnear)]
  · rw [PortRec.settle_not_held h, PortRec.settleNow_eq, Reader.settledState_eq, ← hnext]

end Sys2Proof.Machine
end

section
/-! PROOFS. The presentation of an entry: its checks, its launch, and what becomes of one that does not launch (R99, R114
to R127). -/

namespace Sys2Proof.Machine

/-! ### The channel not ready (R35, R119) -/

theorem atOrBefore_eq_false_of_later {a b : BitVec 32} (h : later a b = true) : atOrBefore a b = false := by
  have hne : a ≠ b := by
    rintro rfl
    rw [later_self] at h
    cases h
  rw [atOrBefore, not_earlier_of_earlier h, beq_eq_false_iff_ne.mpr hne]
  rfl

/-- A ready-after still to come, but not after one retry step: the retry step is the later of the two. -/
theorem laterOf_retry {r now : StageTime} (hr : atOrBefore r now = false) (h : later r (now + 1000) = false) :
    laterOf r (now + 1000) = now + 1000 := by
  rw [laterOf]
  split
  · rfl
  · rename_i hn
    rw [atOrBefore, Bool.or_eq_false_iff, beq_eq_false_iff_ne, ← Bool.not_eq_true, earlier_iff] at hr
    obtain ⟨hne, hr⟩ := hr
    rw [← Bool.not_eq_true, later, earlier_iff] at h
    rw [later, earlier_iff] at hn
    have hswap := since_swap r (now + 1000)
    refine hswap.resolve_right fun hsum => ?_
    have hstep : since r (now + 1000) = (since r now + 1000) % 4294967296 := by
      rw [since, since, show now + 1000 - r = (now - r) + 1000 by
        rw [BitVec.sub_eq_add_neg, BitVec.sub_eq_add_neg, BitVec.add_assoc, BitVec.add_comm 1000, BitVec.add_assoc],
        BitVec.toNat_add]
      rfl
    have hzero : since r now ≠ 0 := fun hz => hne (since_eq_zero.mp hz)
    have hlt : since r now < 4294967296 := (now - r).isLt
    have hback : since (now + 1000) r < 4294967296 := (r - (now + 1000)).isLt
    omega

theorem Channel.notReady_of_ready {now : StageTime} {ch : Channel} (hs : ch.slot = none)
    (hr : ∀ r, ch.readyAfter = some r → atOrBefore r now = true) : ch.notReady now = none := by
  cases hready : ch.readyAfter with
  | none => simp only [Channel.notReady, hs, hready]
  | some r =>
    simp only [Channel.notReady, hs, hready]
    exact if_pos (hr r hready)

theorem Channel.notReady_recovering {now r : StageTime} {ch : Channel} (hs : ch.slot = none) (hr : ch.readyAfter = some r)
    (hlater : later r now = true) : ch.notReady now = some r := by
  simp only [Channel.notReady, hs, hr]
  exact if_neg (by simp [atOrBefore_eq_false_of_later hlater])

theorem Channel.notReady_inFlight {now : StageTime} {ch : Channel} {slot : FlightSlot} (hs : ch.slot = some slot)
    (hr : ∀ r, ch.readyAfter = some r → later r (now + 1000) = false) : ch.notReady now = some (now + 1000) := by
  cases hready : ch.readyAfter with
  | none =>
    simp only [Channel.notReady, hs, hready]
    rfl
  | some r =>
    simp only [Channel.notReady, hs, hready]
    split
    · rfl
    · rename_i hb
      exact congrArg some (laterOf_retry (by simpa using hb) (hr r hready))

theorem Channel.notReady_inFlight_recovering {now r : StageTime} {ch : Channel} {slot : FlightSlot}
    (hs : ch.slot = some slot) (hr : ch.readyAfter = some r) (hnow : later r now = true)
    (hlater : later r (now + 1000) = true) : ch.notReady now = some r := by
  simp only [Channel.notReady, hs, hr]
  rw [if_neg (by simp [atOrBefore_eq_false_of_later hnow])]
  exact congrArg some (if_neg (ne_true_of_eq_false (not_earlier_of_earlier hlater)))

/-! ### Supply and heat (R121, R122) -/

theorem State.supplyCheck_passed {s : State} {c : ChanId}
    (h : s.energised.length < s.settings.supplyLimit ∨ strikeTill s.energised c ≠ none) : s.supplyCheck c = none := by
  refine if_pos ?_
  rw [Bool.or_eq_true, decide_eq_true_eq, Option.isSome_iff_ne_none]
  exact h.symm

section supplyFull
variable {s : State} {c : ChanId} (hfull : s.settings.supplyLimit ≤ s.energised.length)
  (hnew : strikeTill s.energised c = none)
include hfull hnew

theorem State.supplyCheck_holds (h : earliestTill s.energised = none) : s.supplyCheck c = some (.drop .supply) := by
  rw [State.supplyCheck, hnew, if_neg (by simpa using hfull), h]

theorem State.supplyCheck_waits {till : StageTime} (h : earliestTill s.energised = some till) :
    s.supplyCheck c = some (.again (if later till s.now then till else s.now + 1) .supply) := by
  rw [State.supplyCheck, hnew, if_neg (by simpa using hfull), h]
  rfl

end supplyFull

theorem Channel.heatCheck_whole {pulse : Nat} {ch : Channel} (h : pulse ≤ ch.scalars.heatLimit - ch.heat) :
    ch.heatCheck pulse = some (pulse, false) := if_pos h

theorem Channel.heatCheck_cut {pulse : Nat} {ch : Channel} (h : ch.scalars.heatLimit - ch.heat < pulse)
    (hmin : ch.scalars.pulseMin ≤ ch.scalars.heatLimit - ch.heat) :
    ch.heatCheck pulse = some (ch.scalars.heatLimit - ch.heat, true) := by
  simp only [Channel.heatCheck]
  rw [if_neg (not_le.mpr h), if_pos hmin]

theorem Channel.heatCheck_thermal {pulse : Nat} {ch : Channel} (h : ch.scalars.heatLimit - ch.heat < pulse)
    (hmin : ch.scalars.heatLimit - ch.heat < ch.scalars.pulseMin) : ch.heatCheck pulse = none := by
  simp only [Channel.heatCheck]
  rw [if_neg (not_le.mpr h), if_neg (not_le.mpr hmin)]

theorem Channel.heatCheck_passes {pulse : Nat} {ch : Channel} (h : pulse ≤ ch.scalars.heatLimit - ch.heat ∨
    ch.scalars.pulseMin ≤ ch.scalars.heatLimit - ch.heat) : ∃ sent degraded, ch.heatCheck pulse = some (sent, degraded) := by
  by_cases hw : pulse ≤ ch.scalars.heatLimit - ch.heat
  · exact ⟨_, _, Channel.heatCheck_whole hw⟩
  · exact ⟨_, _, Channel.heatCheck_cut (not_le.mp hw) (h.resolve_left hw)⟩

theorem Chain.hasRoom_of {ch : Chain} (h : ch.queue.length < 16) : ch.hasRoom = true := decide_eq_true h

theorem Chain.hasRoom_full {ch : Chain} (h : 16 ≤ ch.queue.length) : ch.hasRoom = false :=
  decide_eq_false (not_lt.mpr h)

/-! ### The verdicts (R118, R125) -/

theorem State.strikeVerdict_refused {s : State} {c : ChanId} {fig : Figures} {code : OutcomeCode}
    (h : s.channelCheck c .strike = some code) : s.strikeVerdict c fig = .drop code := by
  rw [State.strikeVerdict, h]

section strikeVerdict
variable {s : State} {c : ChanId} {fig : Figures} (hc : s.channelCheck c .strike = none)
include hc

theorem State.strikeVerdict_notReady {t : StageTime} (h : (s.chan c).notReady s.now = some t) :
    s.strikeVerdict c fig = .again t .recovery := by
  simp only [State.strikeVerdict, hc, h]

variable (hn : (s.chan c).notReady s.now = none)
include hn

theorem State.strikeVerdict_sag (h : s.supplyLow = true) : s.strikeVerdict c fig = .drop .supply := by
  simp only [State.strikeVerdict, hc, hn, if_pos h]

variable (hs : s.supplyLow = false)
include hs

theorem State.strikeVerdict_supply {v : Verdict} (h : s.supplyCheck c = some v) : s.strikeVerdict c fig = v := by
  simp only [State.strikeVerdict, hc, hn, hs, h]
  rfl

variable (hsup : s.supplyCheck c = none)
include hsup

theorem State.strikeVerdict_thermal (h : (s.chan c).heatCheck fig.pulse = none) :
    s.strikeVerdict c fig = .drop .thermal := by
  simp only [State.strikeVerdict, hc, hn, hs, hsup, h]
  rfl

theorem State.strikeVerdict_passed {pulse : Nat} {degraded : Bool}
    (h : (s.chan c).heatCheck fig.pulse = some (pulse, degraded)) : s.strikeVerdict c fig =
      if (s.chain (chainOf c)).hasRoom then .go pulse degraded else .again (plus s.now s.settings.frameTime) .late := by
  simp only [State.strikeVerdict, hc, hn, hs, hsup, h]
  rfl

end strikeVerdict

theorem State.liftVerdict_refused {s : State} {c : ChanId} {code : OutcomeCode} (h : s.channelCheck c .hold = some code) :
    s.liftVerdict c = .drop code := by
  rw [State.liftVerdict, h]

section liftVerdict
variable {s : State} {c : ChanId} (hc : s.channelCheck c .hold = none)
include hc

theorem State.liftVerdict_sag (h : s.supplyLow = true) : s.liftVerdict c = .drop .supply := by
  simp only [State.liftVerdict, hc, if_pos h]

variable (hs : s.supplyLow = false)
include hs

theorem State.liftVerdict_supply {v : Verdict} (hh : (s.chan c).hold = none) (h : s.supplyCheck c = some v) :
    s.liftVerdict c = v := by
  simp only [State.liftVerdict, hc, hs, hh, h]
  rfl

theorem State.liftVerdict_passed (h : (s.chan c).hold ≠ none ∨ s.energised.length < s.settings.supplyLimit) :
    s.liftVerdict c = if (s.chain (chainOf c)).hasRoom then .go 0 false
      else .again (plus s.now s.settings.frameTime) .late := by
  have hpassed : (if (s.chan c).hold.isSome then none else s.supplyCheck c) = none := by
    split
    · rfl
    · rename_i hh
      exact State.supplyCheck_passed (.inl (h.resolve_left (by simpa using hh)))
  simp only [State.liftVerdict, hc, hs, hpassed]
  rfl

end liftVerdict

theorem State.dropVerdict_refused {s : State} {c : ChanId} {code : OutcomeCode} (h : s.channelCheck c .hold = some code) :
    s.dropVerdict c = .drop code := by
  rw [State.dropVerdict, h]

theorem State.dropVerdict_passed {s : State} {c : ChanId} (h : s.channelCheck c .hold = none) :
    s.dropVerdict c = if (s.chain (chainOf c)).hasRoom then .go 0 false
      else .again (plus s.now s.settings.frameTime) .late := by
  rw [State.dropVerdict, h]

/-! ### The presentation (R99, R116) -/

/-- What becomes of the presented entry, by the verdict of its checks (R116, R117). -/
def State.carryOut (s : State) (e : Entry) (rest : List Entry) (launch : Nat → Bool → State) : Verdict → State
  | .go pulse degraded => launch pulse degraded
  | .again t code => s.retime e rest t code
  | .drop code => s.dropEntry e rest code

theorem State.present_strike {s : State} {e : Entry} {c : ChanId} {fig : Figures} (ha : e.action = .strike c fig)
    (rest : List Entry) :
    s.present e rest = s.carryOut e rest (s.launchStrike e rest c fig) (s.strikeVerdict c fig) := by
  simp only [State.present, ha]
  cases s.strikeVerdict c fig <;> rfl

theorem State.present_lift {s : State} {e : Entry} {c : ChanId} {level : Nat} (ha : e.action = .lift c level)
    (rest : List Entry) :
    s.present e rest = s.carryOut e rest (fun _ _ => s.launchLift e rest c level) (s.liftVerdict c) := by
  simp only [State.present, ha]
  cases s.liftVerdict c <;> rfl

theorem State.present_drop {s : State} {e : Entry} {c : ChanId} (ha : e.action = .drop c) (rest : List Entry) :
    s.present e rest = s.carryOut e rest (fun _ _ => s.launchDrop e rest c) (s.dropVerdict c) := by
  simp only [State.present, ha]
  cases s.dropVerdict c <;> rfl

section presentation
variable {e : Entry} {rest : List Entry} {s : State} (hr : s.resetLow = false) (htl : s.timeline = e :: rest)
  (hsend : e.send = s.now)
include hr htl hsend

theorem exec_presentation : exec .presentation s = .next (s.present e rest) := by
  rw [show exec .presentation s = execPresentation s from rfl, execPresentation, unlessReset_running hr]
  simp only [presentationEvent, htl, hsend, atOrBefore_self, if_true]

theorem exec_presentation_strike {c : ChanId} {fig : Figures} (ha : e.action = .strike c fig) {v : Verdict}
    (hv : s.strikeVerdict c fig = v) :
    exec .presentation s = .next (s.carryOut e rest (s.launchStrike e rest c fig) v) := by
  rw [exec_presentation hr htl hsend, State.present_strike ha, hv]

theorem exec_presentation_lift {c : ChanId} {level : Nat} (ha : e.action = .lift c level) {v : Verdict}
    (hv : s.liftVerdict c = v) :
    exec .presentation s = .next (s.carryOut e rest (fun _ _ => s.launchLift e rest c level) v) := by
  rw [exec_presentation hr htl hsend, State.present_lift ha, hv]

theorem exec_presentation_drop {c : ChanId} (ha : e.action = .drop c) {v : Verdict} (hv : s.dropVerdict c = v) :
    exec .presentation s = .next (s.carryOut e rest (fun _ _ => s.launchDrop e rest c) v) := by
  rw [exec_presentation hr htl hsend, State.present_drop ha, hv]

end presentation

theorem State.retime_within {s : State} {e : Entry} {proposed : StageTime}
    (h : (proposed - e.ideal).toNat ≤ s.settings.tolerance) (rest : List Entry) (code : OutcomeCode) :
    s.retime e rest proposed code = s.withTimeline (placeEntry { e with send := proposed, retimed := true } rest) :=
  if_neg (not_lt.mpr h)

theorem State.retime_late {s : State} {e : Entry} {proposed : StageTime}
    (h : s.settings.tolerance < (proposed - e.ideal).toNat) (rest : List Entry) (code : OutcomeCode) :
    s.retime e rest proposed code = s.dropEntry e rest code := if_pos h

/-! ### Launches (R115, R124, R126) -/

theorem mem_deenergise {c : ChanId} {l : List Member} {m : Member} : m ∈ deenergise c l ↔ m ∈ l ∧ m.chan ≠ c := by
  simp [deenergise]

theorem mem_putMember {m x : Member} {l : List Member} : x ∈ putMember m l ↔ (x ∈ l ∧ x.chan ≠ m.chan) ∨ x = m := by
  rw [putMember, mem_placeAfter, mem_deenergise, or_comm]

theorem mem_energiseHold {c : ChanId} {x : Member} {l : List Member} (h : ∀ m ∈ l, m.chan ≠ c) :
    x ∈ energiseHold c l ↔ x ∈ l ∨ x = ⟨c, none⟩ := by
  rw [energiseHold, mem_putMember]
  exact or_congr_left ⟨And.left, fun hx => ⟨hx, h x hx⟩⟩

/-- The state a hold launch makes before its outcome is given (R126). -/
def State.launchedHold (s : State) (e : Entry) (rest : List Entry) (c : ChanId) (frame : DriveFrame) (hold : Option Lift)
    (members : List Member) : State :=
  { (s.modChain (chainOf c) (Chain.place s.now s.settings.frameTime frame)).modChan c
      fun ch => { ch.nextTag with hold := hold } with
    energised := members,
    monitor := s.monitor.sampleLateness (since e.ideal ((s.chain (chainOf c)).sendStart s.now)) }.withTimeline rest

section launchHold
variable (s : State) (e : Entry) (rest : List Entry) (c : ChanId) (frame : DriveFrame) (hold : Option Lift)
  (members : List Member)

theorem State.launchHold_def : s.launchHold e rest c frame hold members =
    (s.launchedHold e rest c frame hold members).deliverAll e.owners
      (e.outcome .holdSent (some (since e.ideal ((s.chain (chainOf c)).sendStart s.now)))) := rfl

theorem State.launchHold_chan (a : ChanId) : (s.launchHold e rest c frame hold members).chan a =
    if a = c then { s.chan c with hold := hold, tag := (s.chan c).tag + 1 } else s.chan a := by
  rw [State.launchHold, State.deliverAll_chan, State.withTimeline_chan]
  exact State.modChan_chan (s.modChain (chainOf c) (Chain.place s.now s.settings.frameTime frame)) c a
    fun ch => { ch.nextTag with hold := hold }

theorem State.launchHold_chain (d : ChainId) : (s.launchHold e rest c frame hold members).chain d =
    if d = chainOf c then (s.chain (chainOf c)).place s.now s.settings.frameTime frame else s.chain d := by
  rw [State.launchHold, State.deliverAll_chain, State.withTimeline_chain]
  exact State.modChain_chain ..

/-- A hold launch leaves all but the timeline, its chain and channel, the energised set, the monitor and the ports that
its outcome reaches. -/
theorem State.launchHold_eq : s.launchHold e rest c frame hold members = { s with
    timeline := rest, chains := (s.launchHold e rest c frame hold members).chains,
    channels := (s.launchHold e rest c frame hold members).channels, energised := members,
    monitor := s.monitor.sampleLateness (since e.ideal ((s.chain (chainOf c)).sendStart s.now)),
    ports := ((s.withTimeline rest).deliverAll e.owners
      (e.outcome .holdSent (some (since e.ideal ((s.chain (chainOf c)).sendStart s.now))))).ports } := by
  have hports : (s.launchHold e rest c frame hold members).ports = ((s.withTimeline rest).deliverAll e.owners
      (e.outcome .holdSent (some (since e.ideal ((s.chain (chainOf c)).sendStart s.now))))).ports :=
    State.deliverAll_ports (s := s.launchedHold e rest c frame hold members) (t := s.withTimeline rest) rfl rfl _ _
  rw [← hports, State.launchHold_def, State.deliverAll_eq]
  rfl

end launchHold

section launchStrike
variable (s : State) (e : Entry) (rest : List Entry) (c : ChanId) (fig : Figures) (pulse : Nat) (degraded : Bool)

theorem State.launchStrike_chan (a : ChanId) : (s.launchStrike e rest c fig pulse degraded).chan a = if a = c then
    (s.chan c).launched (plus ((s.chain (chainOf c)).sendStart s.now) s.settings.frameTime)
      (slotOf s.settings ((s.chain (chainOf c)).sendStart s.now) (s.chan c).tag e fig pulse degraded) else s.chan a :=
  State.modChan_chan (s.modChain (chainOf c) (Chain.place s.now s.settings.frameTime
    (.fire (boardOf c) (outputOf c) (s.chan c).tag pulse))) c a (Channel.launched _ _)

theorem State.launchStrike_chain (d : ChainId) : (s.launchStrike e rest c fig pulse degraded).chain d =
    if d = chainOf c then (s.chain (chainOf c)).place s.now s.settings.frameTime
      (.fire (boardOf c) (outputOf c) (s.chan c).tag pulse) else s.chain d :=
  State.modChain_chain s (chainOf c) d (Chain.place s.now s.settings.frameTime
    (.fire (boardOf c) (outputOf c) (s.chan c).tag pulse))

end launchStrike

/-- Settles O42: the six checks pass, and the launch is `State.launchStrike`. -/
theorem strokesLaunch : Obligations.StrokesLaunch := by
  intro e rest c fig s hr htl hsend ha hc hslot hready hs hsup hheat hroom
  have hv : s.strikeVerdict c fig = .go fig.pulse false := by
    rw [State.strikeVerdict_passed hc (Channel.notReady_of_ready hslot hready) hs (State.supplyCheck_passed hsup)
      (Channel.heatCheck_whole hheat), if_pos (Chain.hasRoom_of hroom)]
  refine ⟨s.launchStrike e rest c fig fig.pulse false, _, _, rfl, rfl, exec_presentation_strike hr htl hsend ha hv, rfl,
    ?_, ?_, fun m => ?_, rfl, fun a hac => ?_, fun d hd => ?_, rfl⟩
  · rw [State.launchStrike_chain, if_pos rfl]
  · rw [State.launchStrike_chan, if_pos rfl]
    rfl
  · exact mem_putMember
  · rw [State.launchStrike_chan, if_neg hac]
  · rw [State.launchStrike_chain, if_neg hd]

/-- Settles O43: each verdict by the check that gives it, and the two ways of a retime. -/
theorem checksCutRetimeOrDrop : Obligations.ChecksCutRetimeOrDrop := by
  refine ⟨fun e rest c fig s hr htl hsend ha hc hslot hready hs hlimit hroom hover hheat => ?_,
    fun e rest c fig ready s hr htl hsend ha hc hslot hready hlater => ?_, fun e rest s hr htl hsend =>
      ⟨fun c fig ha => ?_, fun c level code ha hcode => ?_, fun c code ha hcode => ?_, fun c ha hc hfull => ?_,
        fun c level ha hc => ⟨fun hs => ?_, fun hs hpass hfull => ?_, fun hs hhold hfull hnew => ?_⟩⟩,
    fun e rest s code => ⟨rfl, fun proposed => ⟨fun h => State.retime_within h rest code,
      fun h => State.retime_late h rest code⟩⟩⟩
  · have hn : (s.chan c).notReady s.now = none := Channel.notReady_of_ready hslot (by simp [hready])
    have hsup : s.supplyCheck c = none := State.supplyCheck_passed (.inl hlimit)
    refine ⟨fun hmin => ?_, fun hmin => ?_⟩
    · have hv : s.strikeVerdict c fig = .go ((s.chan c).scalars.heatLimit - (s.chan c).heat) true := by
        rw [State.strikeVerdict_passed hc hn hs hsup (Channel.heatCheck_cut hover hmin), if_pos (Chain.hasRoom_of hroom)]
      have hchan := State.launchStrike_chan s e rest c fig ((s.chan c).scalars.heatLimit - (s.chan c).heat) true c
      rw [if_pos rfl] at hchan
      refine ⟨_, _, exec_presentation_strike hr htl hsend ha hv, congrArg Channel.slot hchan, rfl, rfl, ?_, rfl⟩
      exact (congrArg Channel.heat hchan).trans (Nat.add_sub_cancel' hheat)
    · exact exec_presentation_strike hr htl hsend ha
        (State.strikeVerdict_thermal hc hn hs hsup (Channel.heatCheck_thermal hover hmin))
  · have hexec : exec .presentation s = .next (s.retime e rest ready .recovery) := exec_presentation_strike hr htl hsend ha
      (State.strikeVerdict_notReady (fig := fig) hc (Channel.notReady_recovering hslot hready hlater))
    exact ⟨fun h => by rw [hexec, State.retime_within h], fun h => by rw [hexec, State.retime_late h]⟩
  · refine ⟨fun code hcode => exec_presentation_strike hr htl hsend ha (State.strikeVerdict_refused hcode), fun hc =>
      ⟨fun slot hslot => ⟨fun hready => ?_, fun r hready hnow hlater => ?_⟩, fun hslot hready => ?_⟩⟩
    · exact exec_presentation_strike hr htl hsend ha (v := .again (s.now + 1000) .recovery)
        (State.strikeVerdict_notReady hc (Channel.notReady_inFlight hslot hready))
    · exact exec_presentation_strike hr htl hsend ha (v := .again r .recovery)
        (State.strikeVerdict_notReady hc (Channel.notReady_inFlight_recovering hslot hready hnow hlater))
    · have hn : (s.chan c).notReady s.now = none := Channel.notReady_of_ready hslot hready
      refine ⟨fun hs => ?_, fun hs hfull hnew => ⟨fun hnone => ?_, fun till htill => ?_⟩, fun hs hlimit hheat hfull => ?_⟩
      · exact exec_presentation_strike hr htl hsend ha (State.strikeVerdict_sag hc hn hs)
      · exact exec_presentation_strike hr htl hsend ha
          (State.strikeVerdict_supply hc hn hs (State.supplyCheck_holds hfull hnew hnone))
      · exact exec_presentation_strike hr htl hsend ha
          (State.strikeVerdict_supply hc hn hs (State.supplyCheck_waits hfull hnew htill))
      · obtain ⟨sent, degraded, hsent⟩ := Channel.heatCheck_passes hheat
        refine exec_presentation_strike hr htl hsend ha (v := .again (plus s.now s.settings.frameTime) .late) ?_
        rw [State.strikeVerdict_passed hc hn hs (State.supplyCheck_passed (.inl hlimit)) hsent, Chain.hasRoom_full hfull,
          if_neg (by decide)]
  · exact exec_presentation_lift hr htl hsend ha (State.liftVerdict_refused hcode)
  · exact exec_presentation_drop hr htl hsend ha (State.dropVerdict_refused hcode)
  · refine exec_presentation_drop hr htl hsend ha (v := .again (plus s.now s.settings.frameTime) .late) ?_
    rw [State.dropVerdict_passed hc, Chain.hasRoom_full hfull, if_neg (by decide)]
  · exact exec_presentation_lift hr htl hsend ha (State.liftVerdict_sag hc hs)
  · refine exec_presentation_lift hr htl hsend ha (v := .again (plus s.now s.settings.frameTime) .late) ?_
    rw [State.liftVerdict_passed hc hs hpass, Chain.hasRoom_full hfull, if_neg (by decide)]
  · refine ⟨fun hnone => ?_, fun till htill => ?_⟩
    · exact exec_presentation_lift hr htl hsend ha
        (State.liftVerdict_supply hc hs hhold (State.supplyCheck_holds hfull hnew hnone))
    · exact exec_presentation_lift hr htl hsend ha
        (State.liftVerdict_supply hc hs hhold (State.supplyCheck_waits hfull hnew htill))

/-- Settles O44: the checks pass, and each launch is a hold launch with its frame, its record and its members. -/
theorem holdsAndMarksComplete : Obligations.HoldsAndMarksComplete := by
  intro e rest s hr htl hsend
  refine ⟨fun c level ha hc hs hhold hlimit hnot hroom => ?_, fun c level ha hc hs hhold hroom => ?_,
    fun c ha hc hroom => ?_, fun ha => ?_⟩
  · have hv : s.liftVerdict c = .go 0 false := by
      rw [State.liftVerdict_passed hc hs (.inr hlimit), if_pos (Chain.hasRoom_of hroom)]
    have hexec := exec_presentation_lift hr htl hsend ha hv
    simp only [State.carryOut, State.launchLift, hhold, Option.isSome_none, if_neg Bool.false_ne_true] at hexec
    refine ⟨_, _, rfl, hexec, ?_, ?_, ?_, fun m => ?_, fun a hac => ?_, fun d hd => ?_, ?_⟩
    · rw [State.launchHold_eq]
    · rw [State.launchHold_chan, if_pos rfl]
      rfl
    · rw [State.launchHold_chain, if_pos rfl]
    · rw [State.launchHold_eq]
      exact mem_energiseHold hnot
    · rw [State.launchHold_chan, if_neg hac]
    · rw [State.launchHold_chain, if_neg hd]
    · rw [State.launchHold_eq]
      rfl
  · have hv : s.liftVerdict c = .go 0 false := by
      rw [State.liftVerdict_passed hc hs (.inl hhold), if_pos (Chain.hasRoom_of hroom)]
    have hexec := exec_presentation_lift hr htl hsend ha hv
    simp only [State.carryOut, State.launchLift, Option.isSome_iff_ne_none.mpr hhold, if_true] at hexec
    refine ⟨_, _, rfl, hexec, ?_, ?_, ?_, fun a hac => ?_, fun d hd => ?_, ?_⟩
    · rw [State.launchHold_eq]
    · rw [State.launchHold_chan, if_pos rfl]
      rfl
    · rw [State.launchHold_chain, if_pos rfl]
    · rw [State.launchHold_chan, if_neg hac]
    · rw [State.launchHold_chain, if_neg hd]
    · rw [State.launchHold_eq]
      rfl
  · have hv : s.dropVerdict c = .go 0 false := by
      rw [State.dropVerdict_passed hc, if_pos (Chain.hasRoom_of hroom)]
    have hexec := exec_presentation_drop hr htl hsend ha hv
    simp only [State.carryOut, State.launchDrop] at hexec
    refine ⟨_, _, rfl, hexec, ?_, ?_, ?_, ?_, fun a hac => ?_, fun d hd => ?_, ?_⟩
    · rw [State.launchHold_eq]
    · rw [State.launchHold_chan, if_pos rfl]
    · rw [State.launchHold_chain, if_pos rfl]
    · rw [State.launchHold_eq]
      rfl
    · rw [State.launchHold_chan, if_neg hac]
    · rw [State.launchHold_chain, if_neg hd]
    · rw [State.launchHold_eq]
      rfl
  · rw [exec_presentation hr htl hsend, State.present, ha]
    rfl

end Sys2Proof.Machine
end

section
/-! PROOFS. The report handler: the take of a report, what it makes of its stroke and its channel, and the deadline (R145,
R154 to R164). -/

namespace Sys2Proof.Machine

/-! ### Changes of one channel or chain -/

theorem State.modChan_congr {s : State} {c : ChanId} {f g : Channel → Channel} (h : f (s.chan c) = g (s.chan c)) :
    s.modChan c f = s.modChan c g :=
  congrArg (fun ch => { s with channels := s.channels.set c.val ch c.isLt }) h

theorem State.modChan_eq_self {s : State} {c : ChanId} {f : Channel → Channel} (h : f (s.chan c) = s.chan c) :
    s.modChan c f = s := by
  rw [State.modChan_congr (g := id) h]
  simp [State.modChan]

theorem State.modChain_modChain (s : State) (d : ChainId) (f g : Chain → Chain) :
    (s.modChain d f).modChain d g = s.modChain d fun ch => g (f ch) := by
  simp [State.modChain]

/-! ### Faults and misses (R23, R32, R161, R164) -/

theorem Channel.fault_eq (cause : FaultCause) (ch : Channel) : ch.fault cause = { ch with
    presence := .faulted, cause := if ch.presence = .faulted then ch.cause else some cause } := by
  by_cases h : ch.presence = .faulted
  · rw [Channel.fault, if_pos h, if_pos h, ← h]
  · rw [Channel.fault, if_neg h, if_neg h]

theorem Channel.fault_of_faulted {ch : Channel} (h : ch.presence = .faulted) (cause : FaultCause) : ch.fault cause = ch :=
  if_pos h

theorem Channel.fault_new {ch : Channel} (h : ch.presence ≠ .faulted) (cause : FaultCause) :
    ch.fault cause = { ch with presence := .faulted, cause := some cause } := if_neg h

theorem entersFaulted_iff {before after : Channel} :
    entersFaulted before after = true ↔ before.presence ≠ .faulted ∧ after.presence = .faulted := by
  simp [entersFaulted]

/-- Whether one more miss faults the channel: it is not FAULTED, and the count reaches the miss limit. -/
def Channel.missFaults (ch : Channel) : Bool :=
  decide (ch.presence ≠ .faulted) && decide (ch.scalars.missLimit ≤ satSucc ch.misses 15)

theorem Channel.missFaults_iff {ch : Channel} : ch.missFaults = true ↔
    ch.presence ≠ .faulted ∧ ch.scalars.missLimit ≤ satSucc ch.misses 15 := by
  simp [Channel.missFaults]

theorem Channel.missFaults_eq_false {ch : Channel}
    (h : ch.presence = .faulted ∨ satSucc ch.misses 15 < ch.scalars.missLimit) : ch.missFaults = false :=
  Bool.eq_false_iff.mpr fun hit => h.elim (Channel.missFaults_iff.mp hit).1 (Channel.missFaults_iff.mp hit).2.not_gt

theorem Channel.miss_eq (ch : Channel) : ch.miss = { ch with
    misses := satSucc ch.misses 15,
    presence := if ch.missFaults then .faulted else ch.presence,
    cause := if ch.missFaults then some .misses else ch.cause } := by
  unfold Channel.miss
  by_cases hlimit : ch.scalars.missLimit ≤ satSucc ch.misses 15
  · rw [if_pos hlimit]
    by_cases hp : ch.presence = .faulted
    · simp [Channel.fault, Channel.missFaults, hp]
    · simp [Channel.fault, Channel.missFaults, hp, hlimit]
  · rw [if_neg hlimit]
    simp [Channel.missFaults, hlimit]

/-- A miss is an entry into FAULTED exactly where it faults the channel. -/
theorem entersFaulted_miss (ch : Channel) (slot : Option FlightSlot) :
    entersFaulted ch ({ ch with slot := slot } : Channel).miss = ch.missFaults := by
  rw [Channel.miss_eq, entersFaulted]
  by_cases hp : ch.presence = .faulted
  · simp [Channel.missFaults, hp]
  · cases hm : ch.missFaults
    · have hm' : ({ ch with slot := slot } : Channel).missFaults = false := hm
      simp [hm', hp]
    · have hm' : ({ ch with slot := slot } : Channel).missFaults = true := hm
      simp [hm', hp]

theorem entersFaulted_fault (ch : Channel) (slot : Option FlightSlot) (cause : FaultCause) :
    entersFaulted ch (({ ch with slot := slot } : Channel).fault cause) = decide (ch.presence ≠ .faulted) := by
  rw [Channel.fault_eq, entersFaulted]
  by_cases hp : ch.presence = .faulted <;> simp [hp]

/-- Learning changes the knots and the outliers alone. -/
theorem Channel.adapt_rest (limit : Nat) (slot : FlightSlot) (measured : Nat) (ch : Channel) :
    ch.adapt limit slot measured =
      { ch with knots := (ch.adapt limit slot measured).knots, outliers := (ch.adapt limit slot measured).outliers } := by
  unfold Channel.adapt
  simp only
  split
  · rfl
  · split
    · rfl
    · split
      · rfl
      · rw [Channel.moveKnot_frame, Channel.moveKnot_frame]

/-! ### Finishing a stroke (R156) -/

theorem State.changeChannel_chan (s : State) (c : ChanId) (f : Channel → Channel) (a : ChanId) :
    (s.changeChannel c f).chan a = if a = c then f (s.chan c) else s.chan a := by
  unfold State.changeChannel
  split
  · exact (State.raiseAll_chan ..).trans (State.modChan_chan ..)
  · exact State.modChan_chan ..

/-- A change of a channel raises CHANNEL_FAULT in every port where it is an entry into FAULTED, and does no more. -/
theorem State.changeChannel_eq (s : State) (c : ChanId) (f : Channel → Channel) : s.changeChannel c f = { s with
    channels := (s.changeChannel c f).channels,
    ports := (if entersFaulted (s.chan c) (f (s.chan c)) then s.raiseAll .channelFault else s).ports } := by
  unfold State.changeChannel
  split <;> rfl

theorem State.raiseAll_ports {s u : State} (hnow : s.now = u.now) (hports : s.ports = u.ports) (src : Source) :
    (s.raiseAll src).ports = (u.raiseAll src).ports := by
  simp only [State.raiseAll, State.modPorts, hnow, hports]

section finishStroke
variable (s : State) (c : ChanId) (slot : FlightSlot) (f : Channel → Channel) (code : OutcomeCode)
  (landed : Option (Nat × Int))

theorem State.finishStroke_chan (a : ChanId) : (s.finishStroke c slot f code landed).chan a =
    if a = c then f { s.chan c with slot := none } else s.chan a := by
  rw [State.finishStroke, State.deliverAll_chan]
  exact State.changeChannel_chan ..

/-- What the finish of a stroke does outside its channel: CHANNEL_FAULT where the channel entered FAULTED, and one outcome
for each owner. The ports are those of any part at the same time with the same ports. -/
theorem State.finishStroke_eq {u : State} (hnow : s.now = u.now) (hports : s.ports = u.ports) {hit : Bool}
    (hhit : entersFaulted (s.chan c) (f { s.chan c with slot := none }) = hit) :
    s.finishStroke c slot f code landed = { s with
      channels := (s.finishStroke c slot f code landed).channels,
      ports := ((if hit then u.raiseAll .channelFault else u).deliverAll slot.owners
        (slot.outcome c code landed)).ports } := by
  have hchange := s.changeChannel_eq c fun ch => f { ch with slot := none }
  have hp : (s.finishStroke c slot f code landed).ports =
      ((if hit then u.raiseAll .channelFault else u).deliverAll slot.owners (slot.outcome c code landed)).ports := by
    refine State.deliverAll_ports ?_ ?_ _ _
    · rw [hchange]
      cases hit <;> exact hnow
    · rw [hchange, hhit]
      cases hit
      · exact hports
      · exact State.raiseAll_ports hnow hports .channelFault
  rw [← hp, State.finishStroke, State.deliverAll_eq, hchange]

/-- A stroke that ends in a miss counts it, and faults its channel where the count reaches the miss limit. -/
theorem State.finishStroke_miss_chan : (s.finishStroke c slot Channel.miss code landed).chan c = { s.chan c with
    slot := none,
    misses := satSucc (s.chan c).misses 15,
    presence := if (s.chan c).missFaults then .faulted else (s.chan c).presence,
    cause := if (s.chan c).missFaults then some .misses else (s.chan c).cause } :=
  (State.finishStroke_chan ..).trans ((if_pos rfl).trans (Channel.miss_eq _))

theorem State.finishStroke_fault_chan (cause : FaultCause) :
    (s.finishStroke c slot (Channel.fault cause) code landed).chan c = { s.chan c with
      slot := none,
      presence := .faulted,
      cause := if (s.chan c).presence = .faulted then (s.chan c).cause else some cause } :=
  (State.finishStroke_chan ..).trans ((if_pos rfl).trans (Channel.fault_eq _ _))

end finishStroke

/-! ### The take of a report (R145, R154, R155) -/

/-- The part once the head report of a chain has left its queue. -/
def State.reportTaken (s : State) (d : ChainId) (rest : List Report) : State :=
  s.modChain d fun ch => { ch with reports := rest, lastTake := some s.now }

section take
variable {d : ChainId} {r : Report} {rest : List Report} {s : State} (hr : s.resetLow = false)
  (hrep : (s.chain d).reports = r :: rest)
include hr hrep

theorem exec_reportTake (htake : (s.chain d).TakesAt r.placed s.now) :
    exec (.reportTake d) s = .next ((s.reportTaken d rest).handle d r) := by
  have htime : atOrBefore ((s.chain d).takeTime r) s.now = true := by
    rw [← Chain.takesAt_iff.mp htake]
    exact atOrBefore_self _
  rw [show exec (.reportTake d) s = execReportTake d s from rfl, execReportTake, unlessReset_running hr]
  simp only [reportTakeEvent, hrep, if_pos htime]
  rfl

theorem exec_reportTake_heldBack {time : StageTime} (htake : (s.chain d).TakesAt r.placed time)
    (hlater : later time s.now = true) : exec (.reportTake d) s = .next s := by
  have htime : ¬ atOrBefore ((s.chain d).takeTime r) s.now = true := by
    rw [← Chain.takesAt_iff.mp htake, atOrBefore_eq_false_of_later hlater]
    exact Bool.false_ne_true
  rw [show exec (.reportTake d) s = execReportTake d s from rfl, execReportTake, unlessReset_running hr]
  simp only [reportTakeEvent, hrep, if_neg htime]

end take

theorem State.reportTaken_chan (s : State) (d : ChainId) (rest : List Report) (c : ChanId) :
    (s.reportTaken d rest).chan c = s.chan c := rfl

theorem State.reportTaken_chain (s : State) (d : ChainId) (rest : List Report) :
    (s.reportTaken d rest).chain d = { s.chain d with reports := rest, lastTake := some s.now } :=
  State.modChain_chain_same ..

theorem State.reportTaken_chain_other (s : State) {d x : ChainId} (h : x ≠ d) (rest : List Report) :
    (s.reportTaken d rest).chain x = s.chain x := State.modChain_chain_other _ _ _ _ h

theorem State.reportTaken_takeStale (s : State) (d : ChainId) (rest : List Report) : (s.reportTaken d rest).takeStale d =
    s.modChain d fun ch => { ch with
      reports := rest, lastTake := some s.now, stale := if ch.stale < 65535 then ch.stale + 1 else ch.stale } := by
  rw [State.takeStale, State.reportTaken, State.modChain_modChain]
  rfl

theorem Channel.matches_of {ch : Channel} {slot : FlightSlot} {tag : BitVec 2} (h : ch.slot = some slot)
    (ht : slot.tag = tag) : ch.matches tag = some slot := by
  rw [Channel.matches, h]
  exact if_pos ht

theorem Channel.matches_none {ch : Channel} {tag : BitVec 2} (h : ∀ slot, ch.slot = some slot → slot.tag ≠ tag) :
    ch.matches tag = none := by
  cases hs : ch.slot with
  | none => rw [Channel.matches, hs]
  | some slot =>
    rw [Channel.matches, hs]
    exact if_neg (h slot hs)

section handle
variable {s : State} {d : ChainId} {b : Fin 4} {o : Fin 8} {tag : BitVec 2} {placed : StageTime} {c : ChanId}
  (hc : c = chanAt d b o)
include hc

/-- A CONTACT or NO_CONTACT for a HOLD channel is stale. -/
theorem State.handle_held (hk : (s.chan c).kind = some .hold) (flight : Nat) :
    s.handle d ⟨.contact tag flight, b, o, placed⟩ = s.takeStale d ∧
      s.handle d ⟨.noContact tag, b, o, placed⟩ = s.takeStale d := by
  subst hc
  exact ⟨if_pos hk, if_pos hk⟩

theorem State.handle_heldFault (hk : (s.chan c).kind = some .hold) :
    s.handle d ⟨.coilOpen tag, b, o, placed⟩ = s.takeHoldFault c .coilOpen ∧
      s.handle d ⟨.coilShort tag, b, o, placed⟩ = s.takeHoldFault c .coilShort := by
  subst hc
  exact ⟨if_pos hk, if_pos hk⟩

/-- A tagged report that matches no slot is stale. -/
theorem State.handle_unmatched (hk : (s.chan c).kind ≠ some .hold)
    (h : ∀ slot, (s.chan c).slot = some slot → slot.tag ≠ tag) (flight : Nat) :
    s.handle d ⟨.contact tag flight, b, o, placed⟩ = s.takeStale d ∧
      s.handle d ⟨.noContact tag, b, o, placed⟩ = s.takeStale d ∧
      s.handle d ⟨.coilOpen tag, b, o, placed⟩ = s.takeStale d ∧
      s.handle d ⟨.coilShort tag, b, o, placed⟩ = s.takeStale d := by
  subst hc
  have hm := Channel.matches_none h
  simp only [State.handle, if_neg hk, hm, and_self]

theorem State.handle_matched (hk : (s.chan c).kind ≠ some .hold) {slot : FlightSlot} (h : (s.chan c).slot = some slot)
    (ht : slot.tag = tag) (flight : Nat) :
    s.handle d ⟨.contact tag flight, b, o, placed⟩ = s.takeContact c slot flight ∧
      s.handle d ⟨.noContact tag, b, o, placed⟩ = s.takeNoContact c slot ∧
      s.handle d ⟨.coilOpen tag, b, o, placed⟩ = s.takeCoilFault c slot .coilOpen ∧
      s.handle d ⟨.coilShort tag, b, o, placed⟩ = s.takeCoilFault c slot .coilShort := by
  subst hc
  have hm := Channel.matches_of h ht
  simp only [State.handle, if_neg hk, hm, and_self]

theorem State.handle_jam : s.handle d ⟨.jam, b, o, placed⟩ = s.takeJam c := by
  subst hc
  rfl

end handle

theorem State.with_chains (s : State) {channels : Vector Channel 128} {ports : Vector PortRec 3}
    {chains chains' : Vector Chain 4} (h : chains = chains') :
    ({ s with channels := channels, ports := ports, chains := chains } : State) =
      { s with channels := channels, ports := ports, chains := chains' } := by rw [h]

/-- Settles O45: the take of the report, its match, and the finish of its stroke. -/
theorem contactsFinishStrokes : Obligations.ContactsFinishStrokes := by
  refine ⟨fun d b o tag flight placed rest s hr hrep htake hk => ⟨fun slot hslot ht => ?_, fun h => ?_⟩,
    fun d b o tag placed rest c s hr hrep htake hc hk => ⟨fun slot hslot ht => ?_, fun h => ?_⟩,
    fun d b o kind placed rest s hr hrep => ⟨fun htake hk hkind => ?_, fun time htake hlater =>
      exec_reportTake_heldBack hr hrep htake hlater⟩⟩
  · have hexec := exec_reportTake hr hrep htake
    rw [((s.reportTaken d rest).handle_matched rfl hk hslot ht flight).1] at hexec
    have hadapt := Channel.adapt_rest s.settings.outlierLimit slot flight
      { s.chan (chanAt d b o) with slot := none, misses := 0, lastFlight := some flight }
    have hchan : ((s.reportTaken d rest).takeContact (chanAt d b o) slot flight).chan (chanAt d b o) =
        Channel.adapt s.settings.outlierLimit slot flight
          { s.chan (chanAt d b o) with slot := none, misses := 0, lastFlight := some flight } :=
      (State.finishStroke_chan ..).trans (if_pos rfl)
    have heq := State.finishStroke_eq
      { s.reportTaken d rest with
        monitor := (s.reportTaken d rest).monitor.sampleLanding (landingError slot.launch slot.target flight) }
      (chanAt d b o) slot (fun ch => Channel.adapt s.settings.outlierLimit slot flight
        { ch with misses := 0, lastFlight := some flight }) .struck
      (some (flight, landingError slot.launch slot.target flight)) (u := s) rfl rfl (hit := false) (by
        have hp := congrArg Channel.presence hadapt
        exact Bool.eq_false_iff.mpr fun h => (entersFaulted_iff.mp h).1 (hp.symm.trans (entersFaulted_iff.mp h).2))
    refine ⟨_, _, rfl, hexec, ?_, ?_, ?_, ?_, hchan, ?_, ?_, fun x hx => ?_, fun a ha => ?_, ?_⟩
    · rw [hchan, hadapt]
    · rw [hchan, hadapt]
    · rw [hchan, hadapt]
    · rw [hchan, hadapt]
    · exact congrArg State.monitor heq
    · exact (congrArg (fun t => t.chain d) heq).trans (s.reportTaken_chain d rest)
    · exact (congrArg (fun t => t.chain x) heq).trans (s.reportTaken_chain_other hx rest)
    · exact (State.finishStroke_chan ..).trans (if_neg ha)
    · exact heq.trans (congrArg₂ (fun chains monitor => { s with
        channels := ((s.reportTaken d rest).takeContact (chanAt d b o) slot flight).channels
        chains := chains
        monitor := monitor
        ports := (s.deliverAll slot.owners (slot.outcome (chanAt d b o) .struck
          (some (flight, landingError slot.launch slot.target flight)))).ports })
        (congrArg State.chains heq).symm (congrArg State.monitor heq).symm)
  · rw [exec_reportTake hr hrep htake, ((s.reportTaken d rest).handle_unmatched rfl hk h flight).1,
      State.reportTaken_takeStale]
  · have hexec := exec_reportTake hr hrep htake
    rw [((s.reportTaken d rest).handle_matched hc hk hslot ht 0).2.1] at hexec
    have hchan : ((s.reportTaken d rest).takeNoContact c slot).chan c = _ := State.finishStroke_miss_chan ..
    have heq := State.finishStroke_eq (s.reportTaken d rest) c slot Channel.miss .silent none (u := s) rfl rfl
      (entersFaulted_miss (s.chan c) none)
    refine ⟨_, (s.chan c).missFaults, hexec, ?_, hchan, ?_, fun x hx => ?_, fun a ha => ?_, ?_⟩
    · rw [hchan]
      exact Channel.missFaults_iff
    · exact (congrArg (fun t => t.chain d) heq).trans (s.reportTaken_chain d rest)
    · exact (congrArg (fun t => t.chain x) heq).trans (s.reportTaken_chain_other hx rest)
    · exact (State.finishStroke_chan ..).trans (if_neg ha)
    · exact heq.trans (State.with_chains s (congrArg State.chains heq).symm)
  · rw [exec_reportTake hr hrep htake, ((s.reportTaken d rest).handle_unmatched hc hk h 0).2.1,
      State.reportTaken_takeStale]
  · rw [exec_reportTake hr hrep htake]
    obtain ⟨tag, flight, rfl⟩ | ⟨tag, rfl⟩ := hkind
    · rw [((s.reportTaken d rest).handle_held rfl hk flight).1, State.reportTaken_takeStale]
    · rw [((s.reportTaken d rest).handle_held rfl hk 0).2, State.reportTaken_takeStale]

/-! ### Fault reports (R159, R162, R163) -/

section holdFault
variable (s : State) (c : ChanId) (cause : FaultCause)

theorem State.endHold_fault_chan (a : ChanId) : ((s.modChan c (Channel.fault cause)).endHold c).chan a =
    if a = c then { (s.chan c).fault cause with hold := none } else s.chan a := by
  rw [State.endHold, State.modChan_modChan]
  exact State.modChan_chan s c a fun ch => { ch.fault cause with hold := none }

theorem State.takeHoldFault_new (h : (s.chan c).presence ≠ .faulted) :
    s.takeHoldFault c cause = ((s.modChan c (Channel.fault cause)).endHold c).raiseAll .channelFault :=
  if_pos (entersFaulted_iff.mpr ⟨h, by rw [Channel.fault_new h]⟩)

/-- The faulted HOLD channel after a report: its hold is gone, and nothing is raised (R161, R162). -/
theorem State.takeHoldFault_faulted (h : (s.chan c).presence = .faulted) :
    s.takeHoldFault c cause =
      { s.modChan c (fun ch => { ch with hold := none }) with
        energised := s.energised.filter fun m => m.chan != c } := by
  have hself : s.modChan c (Channel.fault cause) = s := State.modChan_eq_self (Channel.fault_of_faulted h cause)
  rw [State.takeHoldFault, hself]
  exact if_neg fun hnew => (entersFaulted_iff.mp hnew).1 h

end holdFault

theorem State.takeJam_hold {s : State} {c : ChanId} (hp : (s.chan c).presence ≠ .faulted)
    (hk : (s.chan c).kind = some .hold) : s.takeJam c = s.takeHoldFault c .jam :=
  (if_neg hp).trans (if_pos hk)

theorem State.takeJam_other {s : State} {c : ChanId} (hp : (s.chan c).presence ≠ .faulted)
    (hk : (s.chan c).kind ≠ some .hold) : s.takeJam c =
      (s.modChan c fun ch => { ch with presence := .faulted, cause := some .jam }).raiseAll .channelFault := by
  have hnew : entersFaulted (s.chan c) ((s.chan c).fault .jam) = true :=
    entersFaulted_iff.mpr ⟨hp, by rw [Channel.fault_new hp]⟩
  rw [State.takeJam, if_neg hp, if_neg hk, State.changeChannel, if_pos hnew]
  exact congrArg (State.raiseAll · .channelFault) (State.modChan_congr (Channel.fault_new hp .jam))

theorem State.raiseAll_latched {s : State} {src : Source} {p : Port} (h : (s.port p).unit.enabled src = true) :
    ((s.raiseAll src).port p).unit.latched src = true := by
  rw [State.raiseAll, State.modPorts_port]
  exact NoticeUnit.raise_latched s.now src _ h

/-- Settles O47: the fault reports by kind of report, kind of channel, and match. -/
theorem faultReportsFaultTheirChannel : Obligations.FaultReportsFaultTheirChannel := by
  intro d b o tag kind placed rest c s hr hc hrep htake
  have hexec := exec_reportTake hr hrep htake
  refine ⟨fun cause hkind hk hp => ?_, fun hkind hk hp => ?_, fun slot cause hkind hk hslot ht => ?_,
    fun hkind hk h => ?_, fun hkind hk hp => ?_, fun hkind hp => ?_⟩
  · have hhandle : (s.reportTaken d rest).handle d ⟨kind, b, o, placed⟩ =
        (s.reportTaken d rest).takeHoldFault c cause := by
      obtain ⟨rfl, rfl⟩ | ⟨rfl, rfl⟩ | ⟨rfl, rfl⟩ := hkind
      · exact ((s.reportTaken d rest).handle_heldFault hc hk).1
      · exact ((s.reportTaken d rest).handle_heldFault hc hk).2
      · exact ((s.reportTaken d rest).handle_jam hc).trans (State.takeJam_hold hp hk)
    rw [hhandle, State.takeHoldFault_new (s.reportTaken d rest) c cause hp] at hexec
    refine ⟨_, hexec, ?_, rfl, fun a ha => ?_, s.reportTaken_chain d rest,
      fun x hx => s.reportTaken_chain_other hx rest, fun p hon => State.raiseAll_latched (s := s) hon, rfl⟩
    · refine ((s.reportTaken d rest).endHold_fault_chan c cause c).trans ((if_pos rfl).trans ?_)
      exact congrArg (fun ch : Channel => { ch with hold := none }) (Channel.fault_new hp cause)
    · exact ((s.reportTaken d rest).endHold_fault_chan c cause a).trans (if_neg ha)
  · rw [hexec]
    obtain rfl | rfl := hkind
    · rw [((s.reportTaken d rest).handle_heldFault hc hk).1, State.takeHoldFault_faulted (s.reportTaken d rest) c _ hp]
      rfl
    · rw [((s.reportTaken d rest).handle_heldFault hc hk).2, State.takeHoldFault_faulted (s.reportTaken d rest) c _ hp]
      rfl
  · have hhandle : (s.reportTaken d rest).handle d ⟨kind, b, o, placed⟩ =
        (s.reportTaken d rest).takeCoilFault c slot cause := by
      obtain ⟨rfl, rfl⟩ | ⟨rfl, rfl⟩ := hkind
      · exact ((s.reportTaken d rest).handle_matched hc hk hslot ht 0).2.2.1
      · exact ((s.reportTaken d rest).handle_matched hc hk hslot ht 0).2.2.2
    rw [hhandle] at hexec
    have heq := State.finishStroke_eq (s.reportTaken d rest) c slot (Channel.fault cause) .fault none (u := s) rfl rfl
      (hit := decide ((s.chan c).presence ≠ .faulted)) (entersFaulted_fault (s.chan c) none cause)
    refine ⟨_, _, hexec, decide_eq_true_iff, ?_, (congrArg State.energised heq :), fun a ha => ?_, ?_, fun x hx => ?_, ?_⟩
    · refine (State.finishStroke_fault_chan ..).trans ?_
      rw [State.reportTaken_chan]
      by_cases hp : (s.chan c).presence = .faulted <;> simp [hp]
    · exact (State.finishStroke_chan ..).trans (if_neg ha)
    · exact (congrArg (fun t => t.chain d) heq).trans (s.reportTaken_chain d rest)
    · exact (congrArg (fun t => t.chain x) heq).trans (s.reportTaken_chain_other hx rest)
    · exact heq.trans (State.with_chains s (congrArg State.chains heq).symm)
  · rw [hexec]
    obtain rfl | rfl := hkind
    · rw [((s.reportTaken d rest).handle_unmatched hc hk h 0).2.2.1, State.reportTaken_takeStale]
    · rw [((s.reportTaken d rest).handle_unmatched hc hk h 0).2.2.2, State.reportTaken_takeStale]
  · subst hkind
    rw [hexec, (s.reportTaken d rest).handle_jam hc, State.takeJam_other (s := s.reportTaken d rest) hp hk]
    rfl
  · subst hkind
    rw [hexec, (s.reportTaken d rest).handle_jam hc]
    exact congrArg Host.Outcome.next (if_pos hp)

/-! ### The deadline (R160) -/

theorem exec_deadline {c : ChanId} {slot : FlightSlot} {s : State} (hr : s.resetLow = false)
    (hslot : (s.chan c).slot = some slot) (hdue : slot.deadline = s.now) :
    exec (.deadline c) s = .next (s.finishStroke c slot Channel.miss .noReport none) := by
  have htime : atOrBefore slot.deadline s.now = true := by
    rw [hdue]
    exact atOrBefore_self _
  rw [show exec (.deadline c) s = execDeadline c s from rfl, execDeadline, unlessReset_running hr, deadlineEvent, hslot]
  exact congrArg Host.Outcome.next (if_pos htime)

/-- Settles O48: the finish of the stroke with a miss, by whether the miss faults the channel. -/
theorem deadlinesCountMisses : Obligations.DeadlinesCountMisses := by
  intro c slot s hr hslot hdue
  have hchan := State.finishStroke_miss_chan s c slot .noReport none
  have heq := State.finishStroke_eq s c slot Channel.miss .noReport none (u := s) rfl rfl
    (entersFaulted_miss (s.chan c) none)
  refine ⟨_, exec_deadline hr hslot hdue, ?_, ?_, fun hp hlimit => ?_, fun h => ?_, ?_,
    fun a ha => (State.finishStroke_chan ..).trans (if_neg ha),
    if (s.chan c).missFaults then s.raiseAll .channelFault else s, fun h => ?_, fun h => ?_, heq⟩
  · rw [hchan]
  · rw [hchan]
    rfl
  · rw [hchan] at hlimit
    have hit : (s.chan c).missFaults = true := Channel.missFaults_iff.mpr ⟨hp, hlimit⟩
    rw [hchan, hit]
    refine ⟨rfl, rfl, fun p hon => ?_⟩
    rw [hit] at heq
    rw [show (s.finishStroke c slot Channel.miss .noReport none).port p = _ from congrArg (State.port · p) heq]
    exact (((s.raiseAll .channelFault).deliverAll_worked slot.owners _).port p).unit.kept _ (State.raiseAll_latched (s := s) hon)
  · rw [hchan] at h
    rw [hchan, Channel.missFaults_eq_false h]
    exact ⟨rfl, rfl⟩
  · rw [hchan]
  · rw [hchan] at h
    exact if_pos (Channel.missFaults_iff.mpr h)
  · rw [hchan] at h
    exact if_neg (Bool.eq_false_iff.mp (Channel.missFaults_eq_false h))

end Sys2Proof.Machine
end

section
/-! PROOFS. The completion list, its requests, and the delivery of an outcome at its port (R169 to R174, R177). -/

namespace Sys2Proof.Machine

/-! ### Latches of raised and of judged sources (R176, R177) -/

theorem NoticeUnit.raise_latches {u : NoticeUnit} {src : Source} {now : StageTime} {j : Nat} (hj : j < 14) :
    (u.raise now src).latches.getLsbD j = true ↔
      u.latches.getLsbD j = true ∨ u.enables.getLsbD j = true ∧ j = src.num := by
  by_cases he : u.enables.getLsbD src.num = true
  · rw [NoticeUnit.raise_of_enabled he]
    simp only [BitVec.getLsbD_or, BitVec.getLsbD_twoPow, Bool.or_eq_true, Bool.and_eq_true, decide_eq_true_eq]
    exact or_congr_right ⟨fun h => ⟨h.2 ▸ he, h.2.symm⟩, fun h => ⟨h.2 ▸ hj, h.2.symm⟩⟩
  · rw [NoticeUnit.raise_of_disabled (Bool.not_eq_true _ ▸ he)]
    exact ⟨.inl, fun h => h.elim id fun h => absurd (h.2 ▸ h.1) he⟩

theorem NoticeUnit.edge_level {src : Source} {i : Nat} (hi : src.edgeBit = some i) (u : NoticeUnit) (now : StageTime)
    (rising : Bool) : u.edge now src rising = { u with
      latches := if u.enables.getLsbD src.num = true ∧ u.falling.getLsbD i = !rising
        then u.latches ||| BitVec.twoPow 14 src.num else u.latches } := by
  have hbeat : src ≠ .beat := by
    rintro rfl
    cases hi
  have hselect : (u.falling.getLsbD i != rising) = true ↔ u.falling.getLsbD i = !rising := by
    cases u.falling.getLsbD i <;> cases rising <;> decide
  rw [NoticeUnit.edge, hi]
  simp only [hselect]
  by_cases he : u.enables.getLsbD src.num = true
  · rw [NoticeUnit.raise_of_enabled he, if_neg hbeat]
    simp only [he, true_and]
    split <;> rfl
  · rw [NoticeUnit.raise_of_disabled (Bool.not_eq_true _ ▸ he), ite_self, if_neg fun h => he h.1]

/-- A level source judged: a change of its condition latches it where it is enabled and selects that edge (R177). -/
theorem NoticeUnit.judge_level {src : Source} {i : Nat} (hi : src.edgeBit = some i) (u : NoticeUnit) (now : StageTime)
    (was is : Bool) : u.judge now src was is = { u with
      latches := if was ≠ is ∧ u.enables.getLsbD src.num = true ∧ u.falling.getLsbD i = was
        then u.latches ||| BitVec.twoPow 14 src.num else u.latches } := by
  by_cases hchange : was = is
  · rw [NoticeUnit.judge, if_pos hchange, if_neg fun h => h.1 hchange]
  · have hwas : was = !is := Bool.eq_not.mpr hchange
    rw [NoticeUnit.judge, if_neg hchange, NoticeUnit.edge_level hi, hwas]
    simp

theorem NoticeUnit.judge_records (u : NoticeUnit) (now : StageTime) (src : Source) (was is : Bool) :
    (u.judge now src was is).records = u.records :=
  (congrArg NoticeUnit.records (NoticeUnit.judge_noticed now src was is u).rest :)

theorem NoticeUnit.raise_rest {src : Source} (h : src ≠ .beat) (u : NoticeUnit) (now : StageTime) :
    u.raise now src = { u with latches := (u.raise now src).latches } := by
  by_cases he : u.enables.getLsbD src.num = true
  · rw [NoticeUnit.raise_of_enabled he, if_neg h]
  · rw [NoticeUnit.raise_of_disabled (Bool.not_eq_true _ ▸ he)]

/-! ### The completion list (R172 to R174) -/

theorem NoticeUnit.offerRecord_filtered {u : NoticeUnit} {rec : Completion} (hf : u.filter = .exceptions)
    (he : rec.outcome.isException = false) (now : StageTime) : u.offerRecord now rec = u := by
  rw [NoticeUnit.offerRecord]
  exact if_pos (by simp [hf, he])

section offered
variable {u : NoticeUnit} {rec : Completion} (h : u.filter = .all ∨ rec.outcome.isException = true)
include h

theorem NoticeUnit.offerRecord_appended (hroom : u.records.length < 64) (now : StageTime) : u.offerRecord now rec =
    NoticeUnit.judge now .doneHigh (decide (u.mark ≤ u.records.length)) (decide (u.mark ≤ u.records.length + 1))
      { u with records := u.records ++ [rec] } := by
  rw [NoticeUnit.offerRecord, if_neg (by obtain hf | he := h <;> simp [*]), if_pos hroom, NoticeUnit.doneHigh,
    NoticeUnit.doneHigh, List.length_append, List.length_singleton]

theorem NoticeUnit.offerRecord_lost (hfull : 64 ≤ u.records.length) (now : StageTime) :
    u.offerRecord now rec = { u with lost := satSucc u.lost 65535 } := by
  rw [NoticeUnit.offerRecord, if_neg (by obtain hf | he := h <;> simp [*]), if_neg hfull.not_gt]

end offered

/-- What an offered record latches: DONE_HIGH, where the condition comes with it (R174, R177). -/
theorem NoticeUnit.offerRecord_latches {u : NoticeUnit} {rec : Completion} {now : StageTime} {j : Nat} :
    (u.offerRecord now rec).latches.getLsbD j = true ↔ u.latches.getLsbD j = true ∨
      u.enables.getLsbD j = true ∧ j = 9 ∧ u.falling.getLsbD 0 = false ∧ u.records.length < u.mark ∧
        u.mark ≤ (u.offerRecord now rec).records.length := by
  have hsame : ∀ v : NoticeUnit, v.latches = u.latches → v.records = u.records → (v.latches.getLsbD j = true ↔
      u.latches.getLsbD j = true ∨ u.enables.getLsbD j = true ∧ j = 9 ∧ u.falling.getLsbD 0 = false ∧
        u.records.length < u.mark ∧ u.mark ≤ v.records.length) := by
    intro v hl hrec
    rw [hl, hrec]
    exact ⟨.inl, fun h => h.elim id fun h => absurd h.2.2.2.2 h.2.2.2.1.not_ge⟩
  by_cases hoff : u.filter = .exceptions ∧ rec.outcome.isException = false
  · rw [NoticeUnit.offerRecord_filtered hoff.1 hoff.2]
    exact hsame u rfl rfl
  · have hon : u.filter = .all ∨ rec.outcome.isException = true := by
      cases hf : u.filter
      · exact .inr (Bool.not_eq_false _ ▸ fun he => hoff ⟨hf, he⟩)
      · exact .inl rfl
    by_cases hroom : u.records.length < 64
    · have hcomes : decide (u.mark ≤ u.records.length) ≠ decide (u.mark ≤ u.records.length + 1) ↔
          u.records.length < u.mark ∧ u.mark ≤ u.records.length + 1 := by
        rw [ne_eq, decide_eq_decide]
        omega
      rw [NoticeUnit.offerRecord_appended hon hroom, NoticeUnit.judge_records, NoticeUnit.judge_level (i := 0) rfl]
      simp only [hcomes, List.length_append, List.length_singleton]
      by_cases hlatch : (u.records.length < u.mark ∧ u.mark ≤ u.records.length + 1) ∧
          u.enables.getLsbD 9 = true ∧ u.falling.getLsbD 0 = false
      · obtain ⟨hcome, hen, hedge⟩ := hlatch
        have hwas : decide (u.mark ≤ u.records.length) = false := decide_eq_false hcome.1.not_ge
        rw [if_pos ⟨hcome, hen, hedge.trans hwas.symm⟩]
        simp only [BitVec.getLsbD_or, BitVec.getLsbD_twoPow, Bool.or_eq_true, Bool.and_eq_true, decide_eq_true_eq]
        exact or_congr_right ⟨fun h => ⟨h.2 ▸ hen, h.2.symm, hedge, hcome⟩, fun h => ⟨by decide, h.2.1.symm⟩⟩
      · rw [if_neg fun h => hlatch ⟨h.1, h.2.1, h.2.2.trans (decide_eq_false h.1.1.not_ge)⟩]
        refine ⟨.inl, fun h => h.elim id fun ⟨hen, hj, hedge, hcome⟩ => absurd ⟨hcome, hj ▸ hen, hedge⟩ hlatch⟩
    · rw [NoticeUnit.offerRecord_lost hon (not_lt.mp hroom)]
      exact hsame _ rfl rfl

theorem NoticeUnit.offerRecord_rest (u : NoticeUnit) (now : StageTime) (rec : Completion) :
    u.offerRecord now rec = { u with
      records := (u.offerRecord now rec).records, lost := (u.offerRecord now rec).lost,
      latches := (u.offerRecord now rec).latches } := by
  unfold NoticeUnit.offerRecord
  split
  · rfl
  · split
    · rw [NoticeUnit.judge_level (i := 0) rfl]
    · rfl

/-! ### An outcome taken by a unit (R169 steps 1 to 3) -/

section take
variable (u : NoticeUnit) (now : StageTime) (ref : OwnerRef) (o : OutcomeData)

/-- An outcome taken: after its record, EXCEPTION and MARK change the latches alone. -/
theorem NoticeUnit.take_eq : u.take now ref o =
    { u.offerRecord now (completionOf now ref o) with latches := (u.take now ref o).latches } := by
  have hexc := NoticeUnit.raise_rest (src := .exception) nofun (u.offerRecord now (completionOf now ref o)) now
  have hmark := fun v => NoticeUnit.raise_rest (src := .mark) nofun v now
  unfold NoticeUnit.take
  simp only
  cases o.code.isException <;> cases ref.mark
  · rfl
  · exact hmark _
  · exact hexc
  · simp only [if_true]
    rw [hmark, hexc]

theorem NoticeUnit.take_latches {j : Nat} (hj : j < 14) : (u.take now ref o).latches.getLsbD j = true ↔
    (u.offerRecord now (completionOf now ref o)).latches.getLsbD j = true ∨
      u.enables.getLsbD j = true ∧ (j = 5 ∧ o.code.isException = true ∨ j = 4 ∧ ref.mark = true) := by
  have hen : (u.offerRecord now (completionOf now ref o)).enables = u.enables :=
    (congrArg NoticeUnit.enables (u.offerRecord_rest now (completionOf now ref o)) :)
  have hexc := NoticeUnit.raise_latches (u := u.offerRecord now (completionOf now ref o)) (src := .exception) (now := now) hj
  have hmark := fun v : NoticeUnit => NoticeUnit.raise_latches (u := v) (src := .mark) (now := now) hj
  have henexc : ((u.offerRecord now (completionOf now ref o)).raise now .exception).enables = u.enables :=
    (congrArg NoticeUnit.enables (NoticeUnit.raise_rest (src := .exception) nofun _ now) :).trans hen
  rw [hen] at hexc
  unfold NoticeUnit.take
  simp only
  cases o.code.isException <;> cases ref.mark
  · simp
  · simp [hmark, hen, Source.num]
  · simp [hexc, Source.num]
  · simp only [if_true, hmark, hexc, henexc, and_true, or_assoc, Source.num, ← and_or_left]

end take

/-- An outcome taken changes the list, the lost count and the latches of its unit alone. -/
theorem NoticeUnit.take_rest (u : NoticeUnit) (now : StageTime) (ref : OwnerRef) (o : OutcomeData) :
    u.take now ref o = { u with
      records := (u.take now ref o).records, lost := (u.take now ref o).lost, latches := (u.take now ref o).latches } := by
  rw [NoticeUnit.take_eq, NoticeUnit.offerRecord_rest]

/-! ### The requests (R173, R174) -/

theorem filterOfCode_of_le {f : Byte} (h : f.toNat ≤ 1) :
    filterOfCode f = some (if f = 0 then .exceptions else .all) := by
  rw [filterOfCode]
  split
  · rfl
  · rename_i h0
    exact if_pos (BitVec.eq_of_toNat_eq (by
      have : f.toNat ≠ 0 := fun hz => h0 (BitVec.eq_of_toNat_eq hz)
      exact (by omega : f.toNat = 1)))

theorem Completion.bytes_length (r : Completion) : r.bytes.length = 20 := by
  simp [Completion.bytes, signed16, bytes16, bytes32, bytesOf_length]

theorem NoticeUnit.doneBytes_eq (u : NoticeUnit) : u.doneBytes =
    [BitVec.ofNat 8 (min u.records.length 12), BitVec.ofNat 8 (u.records.length - 12)] ++ bytesOf 2 u.lost ++
      (u.records.take 12).flatMap Completion.bytes := by
  rw [NoticeUnit.doneBytes, show u.records.length - min u.records.length 12 = u.records.length - 12 by omega]
  rfl

theorem NoticeUnit.doneBytes_length (u : NoticeUnit) : u.doneBytes.length = 4 + 20 * min u.records.length 12 := by
  rw [NoticeUnit.doneBytes_eq, List.length_append, List.length_append, bytesOf_length,
    length_flatMap_const Completion.bytes_length, List.length_take, Nat.min_comm 12]
  rfl

theorem NoticeUnit.removeOldest_eq (now : StageTime) (n : Nat) (u : NoticeUnit) : u.removeOldest now n =
    NoticeUnit.judge now .doneHigh (decide (u.mark ≤ u.records.length)) (decide (u.mark ≤ u.records.length - n))
      { u with records := u.records.drop n } := by
  rw [NoticeUnit.removeOldest, NoticeUnit.doneHigh, NoticeUnit.doneHigh, List.length_drop]

theorem State.modUnit_port (s : State) (p : Port) (f : NoticeUnit → NoticeUnit) :
    ((s.modUnit p f).port p).unit = f (s.port p).unit := by
  rw [State.modUnit, State.modPort_port_same, PortRec.modUnit]

theorem exec_doneRead (p : Port) {s : State} (h : s.Taking) : exec (.doneRead p) s =
    .next ((s.modUnit p (NoticeUnit.removeOldest s.now 12)).reply p ⟨.ok, (s.port p).unit.doneBytes⟩) :=
  exec_of_taking (body := doneReadBody p) rfl h

theorem exec_filterSet (p : Port) {f mark : Byte} (hf : f.toNat ≤ 1) (hlow : 1 ≤ mark.toNat) (hhigh : mark.toNat ≤ 64)
    {s : State} (h : s.Taking) : exec (.filterSet p f mark) s = .next ((s.modUnit p
      (NoticeUnit.setFilter s.now (if f = 0 then .exceptions else .all) mark.toNat)).reply p (Reply.bare .ok)) := by
  rw [exec_of_taking (body := filterSetBody p f mark) rfl h, filterSetBody, filterOfCode_of_le hf]
  simp only [inRange_iff, hlow, hhigh, and_self, if_true]
  rfl

/-! ### A phrase's accounts (R71, R75) -/

theorem Reader.modRecord_eq_self {rd : Reader} {n : BitVec 8} (h : ∀ x ∈ rd.opened, x.serial ≠ n)
    (f : OpenRec → OpenRec) : rd.modRecord n f = rd := by
  have hmap : rd.opened.map (fun o => if o.serial = n then f o else o) = rd.opened :=
    (List.map_congr_left fun o ho => if_neg (h o ho)).trans (List.map_id' _)
  rw [Reader.modRecord, hmap]

theorem Reader.record_none {rd : Reader} {n : BitVec 8} (h : ∀ x ∈ rd.opened, x.serial ≠ n) : rd.record n = none := by
  rw [Reader.record, List.find?_eq_none]
  simpa using h

theorem Reader.record_of_unique {rd : Reader} {x : OpenRec} (hmem : x ∈ rd.opened)
    (huniq : ∀ y ∈ rd.opened, y.serial = x.serial → y = x) : rd.record x.serial = some x := by
  have h := Reader.record_modRecord hmem huniq (f := id) rfl
  rwa [Reader.modRecord, show rd.opened.map (fun o => if o.serial = x.serial then id o else o) = rd.opened by simp] at h

theorem PortRec.settleOutcome_unknown {r : PortRec} {n : BitVec 8} (h : ∀ x ∈ r.reader.opened, x.serial ≠ n)
    (now : StageTime) (code : OutcomeCode) : r.settleOutcome now n code = r := by
  rw [PortRec.settleOutcome, Reader.stopsOnFault, Reader.record_none h, Bool.and_false, if_neg Bool.false_ne_true,
    PortRec.account, PortRec.modReader, Reader.modRecord_eq_self h, PortRec.finishIfDone, Reader.record_none h]

theorem OutcomeCode.stopsOnFault_iff (code : OutcomeCode) :
    code.stopsOnFault = true ↔ code = .fault ∨ code = .silent ∨ code = .noReport := by
  cases code <;> decide

theorem PortRec.hold_not_held {r : PortRec} (h : r.reader.isHeld = false) (now : StageTime) (cause : HoldCause) :
    r.hold now cause = { r with reader := { r.reader with state := .held cause }, unit := r.unit.raise now .held } :=
  if_neg (ne_true_of_eq_false h)

/-- An open record with one outcome of its phrase settled (R71). -/
def OpenRec.settled (exception : Bool) (o : OpenRec) : OpenRec :=
  { o with outstanding := o.outstanding - 1,
           exceptions := if exception then satSucc o.exceptions 65535 else o.exceptions }

theorem OpenRec.settled_eq (exception : Bool) (o : OpenRec) : o.settled exception =
    { o with outstanding := o.outstanding - 1,
             exceptions := if exception ∧ o.exceptions < 65535 then o.exceptions + 1 else o.exceptions } := by
  cases exception
  · simp [OpenRec.settled]
  · simp [OpenRec.settled, satSucc]

/-- An outcome that belongs to an open phrase: the port is held where the phrase stops on it, its record is settled, and
the phrase may be done. -/
theorem PortRec.settleOutcome_known {r : PortRec} {n : BitVec 8} {x : OpenRec} (h : r.reader.record n = some x)
    {code : OutcomeCode} {stops : Bool}
    (hstops : stops = true ↔ code.stopsOnFault = true ∧ x.stopOnFault = true ∧ r.reader.isHeld = false)
    (now : StageTime) : r.settleOutcome now n code = PortRec.finishIfDone now n { r with
      reader := ({ r.reader with state := if stops then .held .faultStop else r.reader.state }).modRecord n
        (OpenRec.settled code.isException)
      unit := if stops then r.unit.raise now .held else r.unit } := by
  have hheld : (if (code.stopsOnFault && r.reader.stopsOnFault n) = true then r.hold now .faultStop else r) =
      { r with
        reader := { r.reader with state := if stops then .held .faultStop else r.reader.state }
        unit := if stops then r.unit.raise now .held else r.unit } := by
    rw [Reader.stopsOnFault, h]
    cases stops
    · cases hh : r.reader.isHeld
      · exact if_neg fun hc => absurd (hstops.mpr ⟨(Bool.and_eq_true_iff.mp hc).1, (Bool.and_eq_true_iff.mp hc).2, hh⟩)
          Bool.false_ne_true
      · rw [PortRec.hold, if_pos hh, ite_self]
        rfl
    · obtain ⟨hcode, hx, hh⟩ := hstops.mp rfl
      rw [PortRec.hold_not_held hh, if_pos (Bool.and_eq_true_iff.mpr ⟨hcode, hx⟩)]
      rfl
  rw [PortRec.settleOutcome, hheld]
  rfl

theorem PortRec.finishIfDone_not_done {r : PortRec} {n : BitVec 8} {o : OpenRec} (h : r.reader.record n = some o)
    (hnot : ¬(o.reading ≠ .reading ∧ o.outstanding = 0)) (now : StageTime) : r.finishIfDone now n = r := by
  rw [PortRec.finishIfDone, h]
  exact if_neg (by simpa using hnot)

/-! ### Delivery (R169) -/

theorem State.deliver_no_phrase {s : State} {ref : OwnerRef} (h : ref.phrase = none) (o : OutcomeData) :
    s.deliver ref o = s.modPort ref.port fun _ =>
      { s.port ref.port with unit := (s.port ref.port).unit.take s.now ref o } := by
  refine State.modPort_congr ?_
  rw [PortRec.deliver, h]
  rfl

theorem State.deliver_phrase {s : State} {ref : OwnerRef} {ph : PhraseRef} (h : ref.phrase = some ph) (o : OutcomeData)
    {after : PortRec} (hafter : PortRec.settleOutcome s.now ph.serial o.code
      { s.port ref.port with unit := (s.port ref.port).unit.take s.now ref o } = after) :
    s.deliver ref o = s.modPort ref.port fun _ => after := by
  refine State.modPort_congr ?_
  rw [PortRec.deliver, h]
  exact hafter

/-- Settles O49: the two requests, the level sources, and a delivery by what its phrase is. -/
theorem doneReadAndFilterSet : Obligations.DoneReadAndFilterSet := by
  refine ⟨fun p s h => ⟨⟨s.modUnit p (NoticeUnit.removeOldest s.now 12), _, exec_doneRead p h, ?_, ?_,
    NoticeUnit.doneBytes_eq _, NoticeUnit.doneBytes_length _⟩, fun f mark hf hlow hhigh => exec_filterSet p hf hlow hhigh h⟩,
    fun now u was is src i hi => ?_, ?_⟩
  · rw [State.modUnit_port, NoticeUnit.removeOldest_eq, NoticeUnit.judge_records]
  · exact congrArg (s.modUnit p) (funext fun u => NoticeUnit.removeOldest_eq s.now 12 u)
  · refine NoticeUnit.judge_level ?_ u now was is
    simp only [List.mem_cons, Prod.mk.injEq, List.not_mem_nil, or_false] at hi
    obtain ⟨rfl, rfl⟩ | ⟨rfl, rfl⟩ | ⟨rfl, rfl⟩ | ⟨rfl, rfl⟩ := hi <;> rfl
  · rintro s ref o r taken rfl rfl
    have hrec := congrArg NoticeUnit.records ((s.port ref.port).unit.take_eq s.now ref o)
    have hlost := congrArg NoticeUnit.lost ((s.port ref.port).unit.take_eq s.now ref o)
    refine ⟨⟨?_, fun hf he => ?_, fun hon => ⟨fun hroom => ?_, fun hfull => ?_⟩, fun j hj => ?_⟩,
      fun h => State.deliver_no_phrase h o,
      fun ph h hnone => State.deliver_phrase h o (PortRec.settleOutcome_unknown
        (r := { s.port ref.port with unit := (s.port ref.port).unit.take s.now ref o }) hnone s.now o.code),
      fun ph x stops opened after h hx hser huniq hstops hopened hafter => ?_⟩
    · exact NoticeUnit.take_rest ..
    · rw [hrec, hlost, NoticeUnit.offerRecord_filtered hf he]
      exact ⟨rfl, rfl⟩
    · rw [hrec, hlost, NoticeUnit.offerRecord_appended hon hroom, NoticeUnit.judge_records,
        NoticeUnit.judge_level (i := 0) rfl]
      exact ⟨rfl, rfl⟩
    · rw [hrec, hlost, NoticeUnit.offerRecord_lost hon hfull]
      exact ⟨rfl, rfl⟩
    · rw [NoticeUnit.take_latches _ _ _ _ hj, NoticeUnit.offerRecord_latches, hrec, or_assoc, ← and_or_left,
        or_comm (a := j = 9 ∧ _), or_assoc]
    · have hknown : (s.port ref.port).reader.record ph.serial = some x :=
        hser ▸ Reader.record_of_unique hx (hser ▸ huniq)
      have hopen : opened = ((s.port ref.port).reader.modRecord ph.serial (OpenRec.settled o.code.isException)).opened := by
        simp only [hopened, Reader.modRecord, OpenRec.settled_eq]
      have hsettle := PortRec.settleOutcome_known
        (r := { s.port ref.port with unit := (s.port ref.port).unit.take s.now ref o }) hknown
        (hstops.trans (and_congr_left' (OutcomeCode.stopsOnFault_iff o.code).symm)) s.now
      have hafter' : after = { s.port ref.port with
          reader := ({ (s.port ref.port).reader with
            state := if stops then .held .faultStop else (s.port ref.port).reader.state }).modRecord ph.serial
              (OpenRec.settled o.code.isException)
          unit := if stops then ((s.port ref.port).unit.take s.now ref o).raise s.now .held
            else (s.port ref.port).unit.take s.now ref o } := by
        rw [hafter, hopen]
        rfl
      have hrecord : after.reader.record ph.serial = some (x.settled o.code.isException) := by
        rw [hafter', ← hser]
        exact Reader.record_modRecord (rd := { (s.port ref.port).reader with
          state := if stops then .held .faultStop else (s.port ref.port).reader.state }) hx (hser ▸ huniq) rfl
      rw [← hafter'] at hsettle
      refine ⟨fun hnot => State.deliver_phrase h o (hsettle.trans (PortRec.finishIfDone_not_done hrecord ?_ s.now)),
        fun hdone => State.deliver_phrase h o (hsettle.trans ?_)⟩
      · exact fun hd => hnot ⟨hd.1, Nat.sub_eq_zero_iff_le.mp hd.2⟩
      · rw [PortRec.finishIfDone_done hrecord hdone.1 (Nat.sub_eq_zero_iff_le.mpr hdone.2) s.now, hafter]
        rfl

end Sys2Proof.Machine
end

section
/-! PROOFS. The entry into the safe state and its release (R131, R133, R140, R151, R76). -/

namespace Sys2Proof.Machine

/-! ### A chain at the entry (R140, R151) -/

/-- A chain whose transmitter sends keeps the frame in transmission, and SAFE_ALL follows it. -/
theorem Chain.safeAll_sending {ch : Chain} {f : DriveFrame} {start : StageTime} (h : ch.sending = some (f, start))
    (now : StageTime) (tf : Nat) : ch.safeAll now tf = { ch with
      queue := [.safeAll], busyUntil := some (plus (plus start tf) tf), scan := ch.interruptScan.scan } := by
  simp [Chain.safeAll, Chain.discard, Chain.place, Chain.interruptScan, h]

theorem Chain.safeAll_idle {ch : Chain} (h : ch.sending = none) (now : StageTime) (tf : Nat) :
    ch.safeAll now tf = { ch with
      sending := some (.safeAll, now), queue := [], busyUntil := some (plus now tf), scan := ch.interruptScan.scan } := by
  simp [Chain.safeAll, Chain.discard, Chain.place, Chain.interruptScan, h]

theorem Chain.safeAll_scan (ch : Chain) (now : StageTime) (tf : Nat) :
    (ch.safeAll now tf).scan = ch.scan.map (Scan.restrict fun b => !ch.pinging b) := by
  cases h : ch.sending with
  | none => rw [Chain.safeAll_idle h, Chain.interruptScan_scan]
  | some x => rw [Chain.safeAll_sending (f := x.1) (start := x.2) h, Chain.interruptScan_scan]

theorem Chain.safeAll_rest (ch : Chain) (now : StageTime) (tf : Nat) : ch.safeAll now tf = { ch with
    sending := (ch.safeAll now tf).sending, queue := (ch.safeAll now tf).queue,
    busyUntil := (ch.safeAll now tf).busyUntil, scan := (ch.safeAll now tf).scan } := by
  cases h : ch.sending with
  | none => rw [Chain.safeAll_idle h]
  | some x => rw [Chain.safeAll_sending (f := x.1) (start := x.2) h]

theorem Chain.pinging_eq_false {ch : Chain} {b : Fin 4} : ch.pinging b = false ↔
    .ping b ∉ ch.queue ∧ ∀ start, ch.sending ≠ some (.ping b, start) := by
  rw [Chain.pinging, Bool.or_eq_false_iff, List.contains_eq_mem, decide_eq_false_iff_not]
  refine and_congr_right fun _ => ?_
  cases h : ch.sending with
  | none => simp
  | some x => simp [Prod.ext_iff]

/-- A restricted scan listens for a board it listened for and heard, and keeps the mask of no other. -/
theorem Scan.restrict_board (heard : Fin 4 → Bool) (sc : Scan) (b : Fin 4) :
    (sc.restrict heard).listens[b] = (sc.listens[b] && heard b) ∧
      (sc.restrict heard).found[b] = if (sc.restrict heard).listens[b] then sc.found[b] else none := by
  simp [Scan.restrict]

/-! ### A port at the entry (R76) -/

theorem PortRec.safeHold_working {r : PortRec} (h : r.reader.state = .playing ∨ r.reader.state = .draining)
    (now : StageTime) : r.safeHold now =
      { r with reader := { r.reader with state := .held .safe }, unit := r.unit.raise now .held } := by
  have hidle : r.reader.state ≠ .idle := by
    obtain h | h := h <;> rw [h] <;> nofun
  have hheld : r.reader.isHeld = false := by
    obtain h | h := h <;> rw [Reader.isHeld, h]
  rw [PortRec.safeHold, if_neg hidle, PortRec.hold_not_held hheld]

theorem PortRec.safeHold_resting {r : PortRec} (hp : r.reader.state ≠ .playing) (hd : r.reader.state ≠ .draining)
    (now : StageTime) : r.safeHold now = r := by
  rw [PortRec.safeHold]
  cases h : r.reader.state with
  | idle => exact if_pos rfl
  | playing => exact absurd h hp
  | draining => exact absurd h hd
  | held cause =>
    rw [if_neg nofun, PortRec.hold]
    exact if_pos (by rw [Reader.isHeld, h])

theorem PortRec.safeHold_reader (r : PortRec) (now : StageTime) : (r.safeHold now).reader = { r.reader with
    state := if r.reader.state = .playing ∨ r.reader.state = .draining then .held .safe else r.reader.state } := by
  by_cases h : r.reader.state = .playing ∨ r.reader.state = .draining
  · rw [PortRec.safeHold_working h, if_pos h]
  · rw [PortRec.safeHold_resting (fun hp => h (.inl hp)) (fun hd => h (.inr hd)), if_neg h]

theorem PortRec.safeHold_state (r : PortRec) (now : StageTime) :
    (r.safeHold now).reader.state ≠ .playing ∧ (r.safeHold now).reader.state ≠ .draining := by
  rw [PortRec.safeHold_reader]
  by_cases h : r.reader.state = .playing ∨ r.reader.state = .draining
  · simp [h]
  · simpa [h] using not_or.mp h

/-! ### The SAFE source and the line (R131, R133, R177) -/

theorem NoticeUnit.edge_safe (u : NoticeUnit) (now : StageTime) (rising : Bool) : u.edge now .safe rising = { u with
    latches := if u.enables.getLsbD 13 && (u.falling.getLsbD 3 == !rising) then u.latches ||| BitVec.twoPow 14 13
      else u.latches } := by
  rw [NoticeUnit.edge_level (i := 3) rfl]
  simp [Source.num]

theorem NoticeUnit.edge_safe_rising (u : NoticeUnit) (now : StageTime) : u.edge now .safe true = { u with
    latches := if u.enables.getLsbD 13 && !u.falling.getLsbD 3 then u.latches ||| BitVec.twoPow 14 13
      else u.latches } := by
  rw [NoticeUnit.edge_safe, Bool.not_true, beq_false]

theorem NoticeUnit.edge_safe_falling (u : NoticeUnit) (now : StageTime) : u.edge now .safe false = { u with
    latches := if u.enables.getLsbD 13 && u.falling.getLsbD 3 then u.latches ||| BitVec.twoPow 14 13
      else u.latches } := by
  rw [NoticeUnit.edge_safe, Bool.not_false, beq_true]

theorem State.enterSafe_frame (s : State) : s.enterSafe = { s with
    timeline := [], energised := [], channels := s.enterSafe.channels, chains := s.enterSafe.chains,
    ports := s.enterSafe.ports } := by
  have h := s.enterSafe_eq
  rw [congrArg State.channels h, congrArg State.chains h]
  exact h

theorem State.edgeAll_port (s : State) (src : Source) (rising : Bool) (p : Port) : (s.edgeAll src rising).port p =
    { s.port p with unit := (s.port p).unit.edge s.now src rising } :=
  State.modPorts_port ..

theorem exec_safeEntry {s : State} (hr : s.resetLow = false) (hs : s.safeLow = false) :
    exec .safeEntry s = .next (({ s with safeLow := true }.enterSafe).edgeAll .safe true) := by
  rw [show exec .safeEntry s = execSafeEntry s from rfl, execSafeEntry, if_neg (by simp [hs]), if_neg (by simp [hr])]

theorem exec_safeRelease {s : State} (hr : s.resetLow = false) (hs : s.safeLow = true) :
    exec .safeRelease s = .next ({ s with safeLow := false }.edgeAll .safe false) := by
  rw [show exec .safeRelease s = execSafeRelease s from rfl, execSafeRelease, if_neg (by simp [hs]), if_neg (by simp [hr])]

/-- A port of the part that enters the safe state: the withdrawn outcomes delivered, then held, then the SAFE edge. -/
theorem State.entered_port (s : State) (p : Port) :
    (({ s with safeLow := true }.enterSafe).edgeAll .safe true).port p =
      { (((s.timeline.flatMap fun e => e.owners.map fun o => (o, e.outcome .safed none)).foldl
          (fun st x => st.deliver x.1 x.2) (s.withTimeline [])).port p).safeHold s.now with
        unit := ((((s.timeline.flatMap fun e => e.owners.map fun o => (o, e.outcome .safed none)).foldl
          (fun st x => st.deliver x.1 x.2) (s.withTimeline [])).port p).safeHold s.now).unit.edge s.now .safe true } := by
  have hnow : ({ s with safeLow := true }.enterSafe).now = s.now := by
    rw [State.enterSafe_eq]
  have hports : (State.withdraw { s with safeLow := true } (fun _ => true) .safed).ports =
      ((s.timeline.flatMap fun e => e.owners.map fun o => (o, e.outcome .safed none)).foldl
        (fun st x => st.deliver x.1 x.2) (s.withTimeline [])).ports := by
    rw [State.withdraw, withdrawFrom_all]
    simp only [withdrawnOutcomes, List.filter_true]
    exact State.foldl_deliver_ports (fun x : OwnerRef × OutcomeData => x.1) (fun x => x.2) _ rfl rfl
  have hport := congrArg (fun ps : Vector PortRec 3 => ps[p]) hports
  rw [State.edgeAll_port, State.enterSafe_port, hnow]
  rw [show (State.withdraw { s with safeLow := true } (fun _ => true) .safed).port p = _ from hport]
  rfl

/-- Settles O35: the entry block by block, and the release. -/
theorem safeEntryCancelsAllWork : Obligations.SafeEntryCancelsAllWork := by
  refine fun s hr => ⟨fun hs => ⟨_, exec_safeEntry hr hs, ?_, ?_, ?_, fun c => ?_, fun d => ?_, fun p => ?_,
    fun hnil p => ?_, ?_, fun p r hrp => ?_, fun u => u.edge_safe_rising s.now⟩,
    fun hs => ⟨_, exec_safeRelease hr hs, rfl, fun p => ?_⟩⟩
  · exact (congrArg State.safeLow (State.enterSafe_frame { s with safeLow := true }) :)
  · exact (congrArg State.timeline (State.enterSafe_frame { s with safeLow := true }) :)
  · exact (congrArg State.energised (State.enterSafe_frame { s with safeLow := true }) :)
  · exact State.enterSafe_chan { s with safeLow := true } c
  · have hchain : (({ s with safeLow := true }.enterSafe).edgeAll .safe true).chain d =
        (s.chain d).safeAll s.now s.settings.frameTime := State.enterSafe_chain { s with safeLow := true } d
    rw [hchain]
    refine ⟨fun f start hsend => ?_, fun hsend => ?_, fun hscan => ?_, fun sc hscan =>
      ⟨sc.restrict fun b => !(s.chain d).pinging b, ?_, rfl, rfl, fun b => ⟨?_, (Scan.restrict_board _ sc b).2⟩⟩,
      (s.chain d).safeAll_rest s.now s.settings.frameTime⟩
    · rw [Chain.safeAll_sending hsend]
      exact ⟨hsend, rfl, rfl⟩
    · rw [Chain.safeAll_idle hsend]
      exact ⟨rfl, rfl, rfl⟩
    · rw [Chain.safeAll_scan, hscan]
      rfl
    · rw [Chain.safeAll_scan, hscan]
      rfl
    · rw [(Scan.restrict_board _ sc b).1, Bool.and_eq_true, Bool.not_eq_true', Chain.pinging_eq_false]
  · rw [State.entered_port]
    exact PortRec.safeHold_state ..
  · have hself := s.withTimeline_self
    rw [hnil] at hself
    rw [State.entered_port, PortRec.safeHold_reader, hnil, hself]
    rfl
  · exact congrArg (fun u : State => { u with ports := (({ s with safeLow := true }.enterSafe).edgeAll .safe true).ports })
      (State.enterSafe_frame { s with safeLow := true })
  · rw [State.entered_port, ← hrp]
    refine ⟨fun h => ?_, fun hp hd => ?_⟩
    · rw [PortRec.safeHold_working h]
    · rw [PortRec.safeHold_resting hp hd]
  · exact (State.edgeAll_port ..).trans
      (congrArg (fun u => { s.port p with unit := u }) ((s.port p).unit.edge_safe_falling s.now))

end Sys2Proof.Machine
end

section
/-! PROOFS. The cooling step (R129, R130): channel by channel, quietly, but for a hold that reaches its heat limit. -/

namespace Sys2Proof.Machine

/-! ### The cooling of one channel (R129) -/

/-- The heat of a channel after the cooling of one step, before its hold heats it. -/
def Channel.cooledHeat (ch : Channel) : Nat :=
  ch.heat - (if ch.heat = 0 then 0 else max 1 (ch.heat * ch.scalars.coolingRate / 256))

/-- The hold of a channel, if it is LIFTED, stays short of the heat limit in this step. -/
def Channel.StaysCool (ch : Channel) : Prop :=
  ∀ l, ch.hold = some l → ch.cooledHeat + (l.level + 3) / 4 < ch.scalars.heatLimit

theorem Channel.staysCool_of_down {ch : Channel} (h : ch.hold = none) : ch.StaysCool := fun l hl => by
  rw [h] at hl
  cases hl

theorem Channel.cooledHeat_eq (ch : Channel) :
    (if ch.heat = 0 then 0 else ch.heat - max 1 (ch.heat * ch.scalars.coolingRate / 256)) = ch.cooledHeat := by
  rw [Channel.cooledHeat]
  split
  · rename_i h
    rw [h]
  · rfl

theorem Channel.cool_of_lifted {ch : Channel} {l : Lift} (h : ch.hold = some l) :
    ch.cool = { ch with heat := min (ch.cooledHeat + (l.level + 3) / 4) ch.scalars.heatLimit } := by
  rw [Channel.cool, h]
  simp only [Channel.cooledHeat_eq]

/-- A channel whose hold is DOWN or stays short of its limit cools by itself, and nothing else changes. -/
theorem State.coolChannel_quiet {s : State} {c : ChanId} (h : (s.chan c).StaysCool) :
    s.coolChannel c = s.modChan c fun ch => ch.cool.dropReadyAfter s.now := by
  cases hold : (s.chan c).hold with
  | none => exact State.coolChannel_of_down hold
  | some l =>
    have hcool : (s.modChan c Channel.cool).chan c = _ :=
      (State.modChan_chan_same ..).trans (Channel.cool_of_lifted hold)
    have hshort := h l hold
    unfold State.coolChannel
    simp only [hcool, hold]
    rw [if_neg (by omega)]
    exact State.modChan_modChan ..

/-! ### The forced drop (R130) -/

theorem State.forcedDrop_noRoom {s : State} {c : ChanId} (h : 16 ≤ (s.chain (chainOf c)).queue.length) (l : Lift) :
    s.forcedDrop c l = s :=
  if_neg (by simpa [Chain.hasRoom] using h)

/-- A forced drop that finds room: its frame, its channel, the energised set, and the ports, where HOLD_DROPPED goes to
the lifting port if there is one. -/
theorem State.forcedDrop_room {s : State} {c : ChanId} (h : (s.chain (chainOf c)).queue.length < 16) (l : Lift) :
    s.forcedDrop c l = { s with
      chains := (s.modChain (chainOf c) (Chain.place s.now s.settings.frameTime
        (.holdOff (boardOf c) (outputOf c) (s.chan c).tag))).chains
      channels := (s.modChan c fun ch => { ch.nextTag with hold := none }).channels
      energised := deenergise c s.energised
      ports := (s.forcedDrop c l).ports } ∧
    (l.port = none → (s.forcedDrop c l).ports = s.ports) ∧
    ∀ p, l.port = some p →
      (s.forcedDrop c l).ports = (s.deliver (OwnerRef.bare p) (OutcomeData.plain .holdDropped (some c))).ports := by
  have hroom : (s.chain (chainOf c)).hasRoom = true := by simpa [Chain.hasRoom] using h
  rw [State.forcedDrop, if_pos hroom]
  cases l.port with
  | none => exact ⟨rfl, fun _ => rfl, nofun⟩
  | some p => exact ⟨rfl, nofun, fun q hq => by cases hq; rfl⟩

section limit
variable {s : State} {c : ChanId} {l : Lift} (hold : (s.chan c).hold = some l)
  (hlimit : (s.chan c).scalars.heatLimit ≤ (s.chan c).cooledHeat + (l.level + 3) / 4)
include hold hlimit

theorem State.coolAt_limit : (s.modChan c Channel.cool).chan c =
    { s.chan c with heat := (s.chan c).scalars.heatLimit } := by
  rw [State.modChan_chan_same, Channel.cool_of_lifted hold, Nat.min_eq_right hlimit]

/-- A hold that reaches its limit is to be dropped by force, before its ready-after is looked at. -/
theorem State.coolChannel_limit {u : State} (hdrop : (s.modChan c Channel.cool).forcedDrop c l = u) (hnow : u.now = s.now) :
    s.coolChannel c = u.modChan c (Channel.dropReadyAfter s.now) := by
  unfold State.coolChannel
  simp only [State.coolAt_limit hold hlimit, hold, if_true, hdrop, hnow]

theorem State.coolChannel_noRoom (h : 16 ≤ (s.chain (chainOf c)).queue.length) :
    ∃ cs : Vector Channel 128, s.coolChannel c = { s with channels := cs } ∧
      ∀ a, ({ s with channels := cs } : State).chan a = if a = c then { s.chan c with
        heat := (s.chan c).scalars.heatLimit
        readyAfter := (s.chan c).readyAfter.filter fun r => !atOrBefore r s.now } else s.chan a := by
  refine ⟨_, State.coolChannel_limit hold hlimit (u := s.modChan c Channel.cool)
    (State.forcedDrop_noRoom (s := s.modChan c Channel.cool) h l) rfl, fun a => ?_⟩
  refine (State.modChan_chan ..).trans ?_
  rw [State.coolAt_limit hold hlimit, Channel.dropReadyAfter_eq, State.modChan_chan]
  by_cases ha : a = c <;> simp [ha]

theorem State.coolChannel_room (h : (s.chain (chainOf c)).queue.length < 16) :
    ∃ (cs : Vector Channel 128) (ps : Vector PortRec 3), s.coolChannel c = { s with
        chains := (s.modChain (chainOf c) (Chain.place s.now s.settings.frameTime
          (.holdOff (boardOf c) (outputOf c) (s.chan c).tag))).chains
        channels := cs
        energised := deenergise c s.energised
        ports := ps } ∧
      (∀ a, ({ s with channels := cs } : State).chan a = if a = c then { s.chan c with
        hold := none, heat := (s.chan c).scalars.heatLimit, tag := (s.chan c).tag + 1,
        readyAfter := (s.chan c).readyAfter.filter fun r => !atOrBefore r s.now } else s.chan a) ∧
      (l.port = none → ps = s.ports) ∧
      ∀ p, l.port = some p → ps = (s.deliver (OwnerRef.bare p) (OutcomeData.plain .holdDropped (some c))).ports := by
  obtain ⟨hdrop, hnone, hsome⟩ := State.forcedDrop_room (s := s.modChan c Channel.cool) (c := c) h l
  rw [State.coolAt_limit hold hlimit] at hdrop
  have hchan : ∀ a, ((s.modChan c Channel.cool).modChan c fun ch => { ch.nextTag with hold := none }).chan a =
      if a = c then { s.chan c with
        hold := none, heat := (s.chan c).scalars.heatLimit, tag := (s.chan c).tag + 1 } else s.chan a := fun a => by
    rw [State.modChan_chan, State.coolAt_limit hold hlimit, State.modChan_chan]
    by_cases ha : a = c <;> simp [ha, Channel.nextTag]
  refine ⟨_, _, State.coolChannel_limit hold hlimit hdrop rfl, fun a => ?_, hnone, hsome⟩
  refine (State.modChan_chan ..).trans ?_
  by_cases ha : a = c
  · rw [if_pos ha, if_pos ha, Channel.dropReadyAfter_eq]
    exact congrArg (fun ch : Channel => { ch with readyAfter := ch.readyAfter.filter fun r => !atOrBefore r s.now })
      ((hchan c).trans (if_pos rfl))
  · rw [if_neg ha, if_neg ha]
    exact (hchan a).trans (if_neg ha)

end limit

/-! ### The whole step (R129) -/

/-- The part at the start of a cooling step: the step timer has moved on if it was due (log 5). -/
def State.coolingStarted (s : State) : State :=
  { s with nextCooling := if atOrBefore s.nextCooling s.now then plus s.nextCooling 10000 else s.nextCooling }

theorem exec_coolingStep {s : State} (h : s.resetLow = false) :
    exec .coolingStep s = .next ((List.finRange 128).foldl State.coolChannel s.coolingStarted) :=
  congrArg Host.Outcome.next (unlessReset_running h)

/-- Channels that stay cool, each named once, cool one by one. -/
theorem State.coolAll_quiet {l : List ChanId} (hl : l.Nodup) {s : State} (h : ∀ c ∈ l, (s.chan c).StaysCool) :
    ∃ cs : Vector Channel 128, l.foldl State.coolChannel s = { s with channels := cs } ∧
      ∀ a, ({ s with channels := cs } : State).chan a =
        if a ∈ l then (s.chan a).cool.dropReadyAfter s.now else s.chan a := by
  induction l generalizing s with
  | nil => exact ⟨s.channels, rfl, fun a => (if_neg List.not_mem_nil).symm⟩
  | cons c l ih =>
    obtain ⟨hcl, hl⟩ := List.nodup_cons.mp hl
    have hother : ∀ a ∈ l, a ≠ c := fun a ha hac => hcl (hac ▸ ha)
    obtain ⟨cs, heq, hcs⟩ := ih hl (s := s.modChan c fun ch => ch.cool.dropReadyAfter s.now) fun a ha => by
      rw [State.modChan_chan_other _ _ _ _ (hother a ha)]
      exact h a (List.mem_cons_of_mem _ ha)
    refine ⟨cs, ?_, fun a => (hcs a).trans ?_⟩
    · rw [List.foldl_cons, State.coolChannel_quiet (h c List.mem_cons_self), heq]
      rfl
    · by_cases hac : a = c
      · subst hac
        rw [if_neg hcl, if_pos List.mem_cons_self, State.modChan_chan_same]
      · rw [State.modChan_chan_other _ _ _ _ hac]
        simp only [List.mem_cons, hac, false_or]
        rfl

/-- The cooling step of a part with one channel that may be LIFTED: the others cool around it. -/
theorem State.cooling_around {s : State} {c : ChanId} (h : ∀ e, e ≠ c → (s.chan e).hold = none) :
    ∃ cs : Vector Channel 128, ({ s with channels := cs } : State).chan c = s.chan c ∧
      ∀ v : State, ({ s with channels := cs } : State).coolChannel c = v → v.now = s.now →
        (∀ a, a ≠ c → v.chan a = ({ s with channels := cs } : State).chan a) →
        ∃ cs' : Vector Channel 128, (List.finRange 128).foldl State.coolChannel s = { v with channels := cs' } ∧
          ({ v with channels := cs' } : State).chan c = v.chan c ∧
          ∀ e, e ≠ c → ({ v with channels := cs' } : State).chan e = (s.chan e).cool.dropReadyAfter s.now := by
  obtain ⟨pre, post, hsplit⟩ := List.append_of_mem (List.mem_finRange c)
  have hnd : (pre ++ c :: post).Nodup := hsplit ▸ List.nodup_finRange 128
  obtain ⟨hpre, hcpost, hdisjoint⟩ := List.nodup_append.mp hnd
  obtain ⟨hc, hpost⟩ := List.nodup_cons.mp hcpost
  have hcpre : c ∉ pre := fun hmem => hdisjoint c hmem c List.mem_cons_self rfl
  have hnotboth : ∀ e, e ∈ post → e ∉ pre := fun e he hmem => hdisjoint e hmem e (List.mem_cons_of_mem _ he) rfl
  have hcover : ∀ e, e ≠ c → e ∈ pre ∨ e ∈ post := fun e he => by
    have hmem : e ∈ pre ++ c :: post := hsplit ▸ List.mem_finRange e
    simpa [he] using hmem
  obtain ⟨cs, hfold, hcs⟩ := State.coolAll_quiet hpre (s := s) fun e he =>
    Channel.staysCool_of_down (h e fun hec => hcpre (hec ▸ he))
  refine ⟨cs, (hcs c).trans (if_neg hcpre), fun v hv hnow hrest => ?_⟩
  have hcool : ∀ e ∈ post, v.chan e = s.chan e := fun e he =>
    (hrest e fun hec => hc (hec ▸ he)).trans ((hcs e).trans (if_neg (hnotboth e he)))
  obtain ⟨cs', hfold', hcs'⟩ := State.coolAll_quiet hpost (s := v) fun e he =>
    Channel.staysCool_of_down (hcool e he ▸ h e fun hec => hc (hec ▸ he))
  refine ⟨cs', ?_, (hcs' c).trans (if_neg hc), fun e he => (hcs' e).trans ?_⟩
  · rw [hsplit, List.foldl_append, List.foldl_cons, hfold, hv, hfold']
  · by_cases hmem : e ∈ post
    · rw [if_pos hmem, hcool e hmem, hnow]
    · rw [if_neg hmem, hrest e he, hcs e, if_pos ((hcover e he).resolve_right hmem)]

theorem Channel.cooled_eq (ch : Channel) (now : StageTime) : ch.cool.dropReadyAfter now =
    { ch with heat := ch.cool.heat, readyAfter := ch.readyAfter.filter fun r => !atOrBefore r now } := by
  rw [Channel.dropReadyAfter_eq]
  obtain h | ⟨l, h⟩ := Option.eq_none_or_eq_some ch.hold
  · rw [Channel.cool_of_down h]
  · rw [Channel.cool_of_lifted h]

theorem Channel.cooled_down {ch : Channel} (h : ch.hold = none) (now : StageTime) : ch.cool.dropReadyAfter now =
    { ch with heat := ch.cooledHeat, readyAfter := ch.readyAfter.filter fun r => !atOrBefore r now } := by
  rw [Channel.dropReadyAfter_eq, Channel.cool_of_down h, Channel.cooledHeat]

/-- Settles O36: the step with no hold at its limit, and the step of the one LIFTED channel that reaches it. -/
theorem coolingStepsCoolAndDrop : Obligations.CoolingStepsCoolAndDrop := by
  refine ⟨fun s hr hnext hshort => ?_, fun s c l hr hold hothers hlimit => ⟨fun hroom => ?_, fun hfull => ?_⟩⟩
  · have hcool : ∀ c ∈ List.finRange 128, (s.coolingStarted.chan c).StaysCool := fun c _ l hl =>
      lt_of_le_of_lt (Nat.add_le_add_right (Nat.sub_le ..) _) (hshort c l hl)
    obtain ⟨cs, hfold, hcs⟩ := State.coolAll_quiet (List.nodup_finRange 128) hcool
    have hdue : s.coolingStarted = { s with nextCooling := s.now + 10000 } := by
      rw [State.coolingStarted, hnext, if_pos (atOrBefore_self _)]
      rfl
    refine ⟨_, (exec_coolingStep hr).trans (congrArg Host.Outcome.next hfold), ?_, fun c => ?_⟩
    · rw [hdue]
    · refine (hcs c).trans ((if_pos (List.mem_finRange c)).trans (((s.chan c).cooled_eq s.now).trans ?_))
      refine congrArg₂ (fun heat ready => { s.chan c with heat := heat, readyAfter := ready }) ?_ ?_
      · have hstay := hcool c (List.mem_finRange c)
        cases hhold : (s.chan c).hold with
        | none => exact (congrArg Channel.heat (Channel.cool_of_down hhold) :)
        | some l => exact (congrArg Channel.heat (Channel.cool_of_lifted hhold) :).trans (Nat.min_eq_left (hstay l hhold).le)
      · cases (s.chan c).readyAfter with
        | none => rfl
        | some r => cases h : atOrBefore r s.now <;> simp [Option.filter, h]
  · obtain ⟨cs, hc, haround⟩ := State.cooling_around (s := s.coolingStarted) hothers
    obtain ⟨ds, ps, hdrop, hds, hnone, hsome⟩ := State.coolChannel_room (s := { s.coolingStarted with channels := cs })
      (c := c) (l := l) (hc ▸ hold) (hc ▸ hlimit) hroom
    obtain ⟨cs', hfold, hself, hrest⟩ := haround _ hdrop rfl fun a ha => (hds a).trans (if_neg ha)
    have hchan : ({ s.coolingStarted with channels := cs' } : State).chan c = { s.chan c with
        hold := none, heat := (s.chan c).scalars.heatLimit, tag := (s.chan c).tag + 1,
        readyAfter := (s.chan c).readyAfter.filter fun r => !atOrBefore r s.now } := by
      refine hself.trans ((hds c).trans ((if_pos rfl).trans ?_))
      rw [hc]
      rfl
    refine ⟨_, (exec_coolingStep hr).trans (congrArg Host.Outcome.next hfold), ?_, ?_, ?_, rfl, ?_, fun d hd => ?_, rfl,
      hchan, fun e he => (hrest e he).trans (Channel.cooled_down (hothers e he) s.now), rfl, hnone, hsome⟩
    · exact (congrArg Channel.hold hchan :)
    · exact (congrArg Channel.heat hchan :)
    · exact (congrArg Channel.tag hchan :)
    · refine (State.modChain_chain_same ..).trans ?_
      rw [hc]
      rfl
    · exact State.modChain_chain_other _ _ _ _ hd
  · obtain ⟨cs, hc, haround⟩ := State.cooling_around (s := s.coolingStarted) hothers
    obtain ⟨ds, hstay, hds⟩ := State.coolChannel_noRoom (s := { s.coolingStarted with channels := cs })
      (c := c) (l := l) (hc ▸ hold) (hc ▸ hlimit) hfull
    obtain ⟨cs', hfold, hself, hrest⟩ := haround _ hstay rfl fun a ha => (hds a).trans (if_neg ha)
    refine ⟨_, (exec_coolingStep hr).trans (congrArg Host.Outcome.next hfold), ?_, fun e he => ?_, ?_⟩
    · refine hself.trans ((hds c).trans ((if_pos rfl).trans ?_))
      rw [hc]
      rfl
    · exact (hrest e he).trans (Channel.cooled_down (hothers e he) s.now)
    · rfl

end Sys2Proof.Machine
end
